-- ==== Sys2Proof/Word.lean ====
section
/-! DEFINITION. The widths of the block's values (spec/00_scope.md R7, R9): every value is an unsigned integer of the
width of its register or field, bit 0 the least significant. -/

namespace Sys2Proof

/-- A command word, `cmd[26:0]` (R70). -/
abbrev CmdWord := BitVec 27

/-- A count of ticks: the width CNT_W of the cycle counter and of WAIT's operand (R7, R73). -/
abbrev Ticks := BitVec 24

/-- The document's PulseDuration, 0..255 (R73), also the width of the sequencer's constants (R7). -/
abbrev Duration := BitVec 8

/-- A payload of 24 bits (R7, PAYLOAD_W). -/
abbrev Payload := BitVec 24

/-- A quantized level, 0..1023 (R7, LEVEL_W). -/
abbrev Level := BitVec 10

/-- A frame of 48 bits (R7, FRAME_BITS). -/
abbrev Frame := BitVec 48

end Sys2Proof
end

