-- ==== Sys2Proof/Syntax.lean ====
section
/-! DEFINITION. The eight operations of spec/opcode_table.json (30_encoding.md R72) with their operands (R73), and the
lines of the assembly text of R78 and R79. -/

namespace Sys2Proof

/-- One constructor per row of the opcode table. The operand fields have the widths of R73, so every value a field can
hold is in range; bits of ARG that R73 does not read are no part of an instruction (R75). -/
inductive Instr where
  | disable
  | enable
  | wait     (n : Ticks)
  | gap      (d : Duration)
  | mark     (d : Duration)
  | transmit (p : Payload)
  | decode   (l : Level)
  | dispatch (l : Level)
deriving DecidableEq, Repr

/-- One line of assembly text: a mnemonic of R72 with the number written after it, not yet checked against the
operand's range (R78), or a pseudo-instruction of R79. -/
inductive AsmLine where
  | disable
  | enable
  | wait     (n : Nat)
  | gap      (d : Nat)
  | mark     (d : Nat)
  | transmit (p : Nat)
  | decode   (l : Nat)
  | dispatch (l : Nat)
  | nop
  | press    (k : Nat)
  | release
  | sendbtn  (k : Nat)
  | bit0
  | bit1
deriving DecidableEq, Repr

end Sys2Proof
end

