-- ==== Sys2Proof/WellFormed.lean ====
section
/-! DEFINITION. Which assembly lines are well formed: the operand lies in the range of 30_encoding.md R73 (R78: an
assembler refuses a line whose operand is out of range), and the k of PRESS and SENDBTN is a button id (R79). -/

namespace Sys2Proof

/-- The range checks of R78 and R79. -/
def AsmLine.wellFormed : AsmLine → Bool
  | .disable    => true
  | .enable     => true
  | .wait n     => decide (n < 2 ^ 24)
  | .gap d      => decide (d < 2 ^ 8)
  | .mark d     => decide (d < 2 ^ 8)
  | .transmit p => decide (p < 2 ^ 24)
  | .decode l   => decide (l < 2 ^ 10)
  | .dispatch l => decide (l < 2 ^ 10)
  | .nop        => true
  | .press k    => decide (1 ≤ k) && decide (k ≤ 8)
  | .release    => true
  | .sendbtn k  => decide (1 ≤ k) && decide (k ≤ 8)
  | .bit0       => true
  | .bit1       => true

/-- The assembly line of an instruction: its mnemonic and its operand as a number. -/
def Instr.toLine : Instr → AsmLine
  | .disable    => .disable
  | .enable     => .enable
  | .wait n     => .wait n.toNat
  | .gap d      => .gap d.toNat
  | .mark d     => .mark d.toNat
  | .transmit p => .transmit p.toNat
  | .decode l   => .decode l.toNat
  | .dispatch l => .dispatch l.toNat

/-- An instruction is well formed when its line is: its operand lies in the range of R73. The field types of `Instr`
make this hold of every instruction (`Sys2Proof.Laws.OpField`); R76 has no illegal encoding. -/
def Instr.wellFormed (i : Instr) : Bool := i.toLine.wellFormed

end Sys2Proof
end

