-- ==== Sys2Proof/Decode.lean ====
section
/-! DEFINITION. The decoder of 30_encoding.md R76, total on the 27-bit command words; the reading of a number as a
command word, which refuses by name what does not fit the port; and the encoder of R72 and R78. -/

namespace Sys2Proof

/-- OP, `cmd[26:24]` (R70). -/
def opField (w : CmdWord) : BitVec 3 := w.extractLsb' 24 3

/-- ARG, `cmd[23:0]` (R70). -/
def argField (w : CmdWord) : BitVec 24 := w.extractLsb' 0 24

/-- N = ARG[23:0] (R73). -/
def countOperand (w : CmdWord) : Ticks := argField w

/-- D = ARG[7:0] (R73); ARG[23:8] is not read. -/
def durationOperand (w : CmdWord) : Duration := (argField w).extractLsb' 0 8

/-- P = ARG[23:0] (R73). -/
def payloadOperand (w : CmdWord) : Payload := argField w

/-- L = ARG[9:0] (R73); ARG[23:10] is not read. -/
def levelOperand (w : CmdWord) : Level := (argField w).extractLsb' 0 10

/-- The decoder of R76: every word is exactly one of the eight operations. OP has 3 bits, so the last arm is OP = 7. -/
def decodeCmd (w : CmdWord) : Instr :=
  match (opField w).toNat with
  | 0 => .disable
  | 1 => .enable
  | 2 => .wait (countOperand w)
  | 3 => .gap (durationOperand w)
  | 4 => .mark (durationOperand w)
  | 5 => .transmit (payloadOperand w)
  | 6 => .decode (levelOperand w)
  | _ => .dispatch (levelOperand w)

/-- Why a number is no command word. -/
inductive DecodeError where
  /-- A bit above bit 26 is set: the port `cmd[26:0]` has no line for it (R21, R70). -/
  | widerThanPort
deriving DecidableEq, Repr

/-- A number read as a command word (log 9). -/
def wordOfNat (w : Nat) : Except DecodeError CmdWord :=
  if w < 2 ^ 27 then .ok (BitVec.ofNat 27 w) else .error .widerThanPort

/-- Decoding of any number, rejecting by name. -/
def decodeNat (w : Nat) : Except DecodeError Instr :=
  match wordOfNat w with
  | .ok c => .ok (decodeCmd c)
  | .error e => .error e

/-- The number of the opcode table's row: its bits above `nbits` count as 0. The command word is one parallel value, so
bit k of the table is `cmd[k]` (20_memory.md R56). -/
def tableNumber (nbits w : Nat) : Nat := w % 2 ^ nbits

/-- What the decoder reads from an instruction given as spec/opcode_table.json numbers its bits. -/
def decodeTableWord (nbits w : Nat) : Option Instr :=
  match decodeNat (tableNumber nbits w) with
  | .ok i => some i
  | .error _ => none

/-- OP of an operation (R72). -/
def opcode : Instr → BitVec 3
  | .disable    => 0#3
  | .enable     => 1#3
  | .wait _     => 2#3
  | .gap _      => 3#3
  | .mark _     => 4#3
  | .transmit _ => 5#3
  | .decode _   => 6#3
  | .dispatch _ => 7#3

/-- ARG of an operation: its operand in the low bits, every bit not read 0 (R75, R78). -/
def argument : Instr → BitVec 24
  | .disable    => 0#24
  | .enable     => 0#24
  | .wait n     => n
  | .gap d      => d.setWidth 24
  | .mark d     => d.setWidth 24
  | .transmit p => p
  | .decode l   => l.setWidth 24
  | .dispatch l => l.setWidth 24

/-- The command word of an operation, `(OP << 24) | operand` (R78). -/
def encode (i : Instr) : CmdWord := opcode i ++ argument i

/-- Which bits of a command word are read: OP always, and of ARG the bits R73 names for the operation. -/
def readMask : Instr → CmdWord
  | .disable    => 0x7000000#27
  | .enable     => 0x7000000#27
  | .wait _     => 0x7FFFFFF#27
  | .gap _      => 0x70000FF#27
  | .mark _     => 0x70000FF#27
  | .transmit _ => 0x7FFFFFF#27
  | .decode _   => 0x70003FF#27
  | .dispatch _ => 0x70003FF#27

end Sys2Proof
end

