-- ==== Sys2Proof/Config.lean ====
section
/-! DEFINITION. What is fixed for one piece of hardware: the parameters of spec/00_scope.md R7 with their ranges
(their default values stand in Machine/Defaults.lean), the three parameters the spec leaves OPEN, and the inputs the environment drives (R21), which
are free where State does not list them. -/

namespace Sys2Proof

/-- The eight buttons, by the names of the command table (30_encoding.md R83), ids 1..8 in this order. -/
inductive Button where
  | exit | ok | down | up | menu | guide | power | input
deriving DecidableEq, Repr

/-- The document's ButtonState: none, or one of the eight buttons (00_scope.md R11). -/
abbrev ButtonState := Option Button

/-- One value for each button: the shape of `CMD_TABLE[1..8]` and of `BASE[1..8]` (R7). -/
structure PerButton (α : Type) where
  exit  : α
  ok    : α
  down  : α
  up    : α
  menu  : α
  guide : α
  power : α
  input : α
deriving DecidableEq, Repr

/-- The entry of a button. -/
def PerButton.get {α : Type} (t : PerButton α) : Button → α
  | .exit  => t.exit
  | .ok    => t.ok
  | .down  => t.down
  | .up    => t.up
  | .menu  => t.menu
  | .guide => t.guide
  | .power => t.power
  | .input => t.input

/-- The parameters of R7 that have a value or are OPEN there. The widths PAYLOAD_W, LEVEL_W, FRAME_BITS and CNT_W are
fixed and stand in the types. BASE and TOL are integers, as R7 says (log 10). DESIGN CHOICE: CARRIER_HZ and CLK_HZ are
whole numbers of hertz, where R7 says only 'positive' (log 3). -/
structure Params where
  addr       : BitVec 24
  cmdTable   : PerButton Payload
  tPreMark   : Duration
  tPreGap    : Duration
  tBitMark   : Duration
  tOneGap    : Duration
  tZeroGap   : Duration
  tol        : Int
  base       : PerButton Int
  noneAbove  : Level
  delayTicks : Ticks
  carrierHz  : Nat
  clkHz      : Nat
deriving DecidableEq, Repr

/-- `TH[k] = BASE[k] + TOL` (R7). -/
def Params.th (p : Params) (b : Button) : Int := p.base.get b + p.tol

/-- The range R7 gives `TH[k]`: 0..1024. -/
def Params.thInRange (p : Params) (b : Button) : Bool := decide (0 ≤ p.th b) && decide (p.th b ≤ 1024)

/-- The ranges of R7's table. A configuration outside them is refused at elaboration (R7, D10): see `Config`. -/
def Params.inRange (p : Params) : Bool :=
  p.tPreMark != 0 && p.tPreGap != 0 && p.tBitMark != 0 && p.tOneGap != 0 && p.tZeroGap != 0 &&
  p.thInRange .exit && p.thInRange .ok && p.thInRange .down && p.thInRange .up &&
  p.thInRange .menu && p.thInRange .guide && p.thInRange .power && p.thInRange .input &&
  p.delayTicks != 0 && p.carrierHz != 0 && p.clkHz != 0

/-- A configuration: parameters inside the ranges of R7. The proof field is the model's form of "refused at
elaboration": parameters out of range are no configuration, so no machine is built from them (log 2). -/
structure Config extends Params where
  ok : toParams.inRange = true
deriving DecidableEq, Repr

/-- DELAY_TICKS - 1 of this hardware. OPEN in the spec (R7, D11): a free value of the range (log 3). -/
opaque Config.delayTicksPred : Fin 16777215

/-- CARRIER_HZ - 1 of this hardware. OPEN in the spec (R7, D12): a free value (log 3). No meaning reads it. DESIGN
CHOICE: a whole number of hertz (log 3). -/
opaque Config.carrierHzPred : Nat

/-- CLK_HZ - 1 of this hardware. OPEN in the spec (R7, D12): a free value (log 3). No meaning reads it. DESIGN CHOICE:
a whole number of hertz (log 3). -/
opaque Config.clkHzPred : Nat

/-- What the environment drives on the input ports of 10_state.md R21 in one cycle. -/
structure Inputs where
  rst      : Bool
  tick     : Bool
  cmdValid : Bool
  cmd      : CmdWord
deriving DecidableEq, Repr, Inhabited

/-- What the environment drives in the n-th cycle where State does not say: free (R32; log 1). -/
opaque Config.freeInputs : Nat → Inputs

end Sys2Proof
end

