-- ==== Sys2Proof/Machine/Defaults.lean ====
section
/-! DEFINITION. The normative default values of the parameters (spec/00_scope.md R7) and the configuration of this
hardware. The numbers are the document's and "unaudited" (91_not_in_source.md N2): no meaning names one, each reads its
parameter from the configuration. -/

namespace Sys2Proof

/-- The default command table of R7 and 20_memory.md R50. -/
def Config.defaultTable : PerButton Payload where
  exit  := 0x54D400
  ok    := 0xC94900
  down  := 0xCB4B00
  up    := 0xCA4A00
  menu  := 0xD25200
  guide := 0x0E8709
  power := 0xBD3D00
  input := 0x850500

/-- The default base points of R7. -/
def Config.defaultBase : PerButton Int where
  exit  := 0
  ok    := 127
  down  := 256
  up    := 388
  menu  := 521
  guide := 650
  power := 779
  input := 908

/-- The normative default parameters of R7. The three OPEN parameters are arguments, in a form that holds exactly the
values of their ranges: DELAY_TICKS is `delayPred + 1` in 1..2^24-1, CARRIER_HZ and CLK_HZ are `carrierPred + 1` and
`clkPred + 1`, positive. -/
def Config.defaultParams (delayPred : Fin 16777215) (carrierPred clkPred : Nat) : Params where
  addr       := 0x802002
  cmdTable   := Config.defaultTable
  tPreMark   := 133
  tPreGap    := 67
  tBitMark   := 17
  tOneGap    := 51
  tZeroGap   := 16
  tol        := 65
  base       := Config.defaultBase
  noneAbove  := 999
  delayTicks := BitVec.ofNatLT (delayPred.val + 1) (by omega)
  carrierHz  := carrierPred + 1
  clkHz      := clkPred + 1

/-- The defaults of R7 lie in the ranges of R7, whatever the OPEN parameters are. -/
theorem Config.defaultParams_inRange (delayPred : Fin 16777215) (carrierPred clkPred : Nat) :
    (Config.defaultParams delayPred carrierPred clkPred).inRange = true := by
  have hd : (Config.defaultParams delayPred carrierPred clkPred).delayTicks ≠ 0 := by
    intro h
    have := congrArg BitVec.toNat h
    simp [Config.defaultParams] at this
  have hc : (Config.defaultParams delayPred carrierPred clkPred).carrierHz ≠ 0 := Nat.succ_ne_zero _
  have hk : (Config.defaultParams delayPred carrierPred clkPred).clkHz ≠ 0 := Nat.succ_ne_zero _
  unfold Params.inRange
  rw [Bool.and_eq_true, Bool.and_eq_true, Bool.and_eq_true, bne_iff_ne, bne_iff_ne, bne_iff_ne]
  exact ⟨⟨⟨rfl, hd⟩, hc⟩, hk⟩

/-- The default configuration for a choice of the OPEN parameters. -/
def Config.default (delayPred : Fin 16777215) (carrierPred clkPred : Nat) : Config where
  toParams := Config.defaultParams delayPred carrierPred clkPred
  ok       := Config.defaultParams_inRange delayPred carrierPred clkPred

/-- The configuration of this hardware: R7's normative defaults with the OPEN parameters free. -/
def Config.thisHardware : Config :=
  Config.default Config.delayTicksPred Config.carrierHzPred Config.clkHzPred

end Sys2Proof
end

