-- ==== Sys2Proof/Machine/State.lean ====
section
/-! DEFINITION. The state of the block: the seven registers of spec/10_state.md R23, the constant parameters (R7, R8),
and what the environment drives on the input ports. -/

namespace Sys2Proof.Machine

/-- SEG, the current segment of the cycle counter: the ten values of 30_encoding.md R80, which allows an enumeration. -/
inductive Seg where
  | idle | wait | mark | gap | preMark | preGap | hdrMark | bitGap | bitMark | delay
deriving DecidableEq, Repr

/-- The machine. The first seven fields are the block's registers with the widths of R23; `cfg` is the configuration,
which no step writes (R8; log 2); `inputs` and `cycle` are the model's own and say what the environment drives:
`inputs` lists the coming cycles, the present one first, and after its end `Config.freeInputs` at `cycle` does (log 1). -/
structure State where
  ce     : Bool
  seg    : Seg
  cnt    : Ticks
  f      : Frame
  i      : BitVec 6
  dly    : Bool
  btn    : BitVec 4
  cfg    : Config
  inputs : List Inputs
  cycle  : Nat
deriving DecidableEq, Repr

/-- Why the machine stops with a fault: never. "The block raises no exception" (60_exceptions.md R200), so there is no
constructor (log 5). -/
inductive Fault where
deriving DecidableEq, Repr

/-- Why an instruction has no meaning. -/
inductive Refusal where
  /-- Raised only by an arm of exec whose instruction has no meaning yet; none is. Safe: the machine stops. -/
  | notModelled (mnemonic : String)
deriving DecidableEq, Repr

/-- The machine right after a clock edge with `rst` = 1: the reset values of R34, this hardware's configuration, and
an environment of which nothing is said. -/
def State.reset : State where
  ce     := false
  seg    := .idle
  cnt    := 0#24
  f      := 0#48
  i      := 0#6
  dly    := false
  btn    := 0#4
  cfg    := Config.thisHardware
  inputs := []
  cycle  := 0

end Sys2Proof.Machine
end

