-- ==== Sys2Proof/Machine/Operands.lean ====
section
/-! DEFINITION. Operand assembly (30_encoding.md R74) and the internal codes of R80 and R83. -/

namespace Sys2Proof.Machine

/-- A duration as it is loaded into CNT: `zext_24(D)` (R74). -/
def ticksOfDuration (d : Duration) : Ticks := d.setWidth 24

/-- The number of a segment (R80). -/
def segCode : Seg → BitVec 4
  | .idle    => 0#4
  | .wait    => 1#4
  | .mark    => 2#4
  | .gap     => 3#4
  | .preMark => 4#4
  | .preGap  => 5#4
  | .hdrMark => 6#4
  | .bitGap  => 7#4
  | .bitMark => 8#4
  | .delay   => 9#4

/-- The id of a button, 1..8 (R83). -/
def buttonId : Button → BitVec 4
  | .exit  => 1#4
  | .ok    => 2#4
  | .down  => 3#4
  | .up    => 4#4
  | .menu  => 5#4
  | .guide => 6#4
  | .power => 7#4
  | .input => 8#4

/-- The 4-bit code of a button state, held in BTN (R83): 0 is none. -/
def buttonCode : ButtonState → BitVec 4
  | none   => 0#4
  | some b => buttonId b

/-- The button with an id, if there is one (R83). -/
def buttonOfId : Nat → Option Button
  | 1 => some .exit
  | 2 => some .ok
  | 3 => some .down
  | 4 => some .up
  | 5 => some .menu
  | 6 => some .guide
  | 7 => some .power
  | 8 => some .input
  | _ => none

end Sys2Proof.Machine
end

