-- ==== Sys2Proof/Machine/Ops.lean ====
section
/-! DEFINITION. The writes of the block's registers that the operations and the segment ends are made of, reset, and
the present cycle's inputs. The block has no memory and no register file (20_memory.md R51, 10_state.md R29) and takes no
exception (60_exceptions.md R200, R205), so there is no memory operation, no register accessor by number and no
exception entry. -/

namespace Sys2Proof.Machine

/-- The inputs of the present cycle: the first the state lists, or what the environment freely drives (log 1). -/
def State.now (s : State) : Inputs :=
  match s.inputs with
  | []     => Config.freeInputs s.cycle
  | x :: _ => x

/-- The present cycle is over: its inputs are gone. No register changes. -/
def State.advance (s : State) : State := { s with inputs := s.inputs.tail, cycle := s.cycle + 1 }

/-- `CE <- b`. -/
def setCarrier (b : Bool) (s : State) : State := { s with ce := b }

/-- `BTN <- b` with the code of R83. -/
def setButton (b : ButtonState) (s : State) : State := { s with btn := buttonCode b }

/-- `SEG <- seg; CNT <- n`: a counted segment begins. -/
def enterSegment (seg : Seg) (n : Ticks) (s : State) : State := { s with seg := seg, cnt := n }

/-- `SEG <- IDLE; CNT <- 0`. -/
def goIdle (s : State) : State := { s with seg := .idle, cnt := 0#24 }

/-- The reset values of 10_state.md R34, for every register (70_reset_and_hazards.md R220). The parameters are no
registers, and what the environment drives is not the block's to reset (log 8). -/
def resetRegisters (s : State) : State :=
  { s with ce := false, seg := .idle, cnt := 0#24, f := 0#48, i := 0#6, dly := false, btn := 0#4 }

/-- SEG is one of the five frame segments (10_state.md R31). -/
def inFrame : Seg → Bool
  | .preMark | .preGap | .hdrMark | .bitGap | .bitMark => true
  | .idle | .wait | .mark | .gap | .delay => false

end Sys2Proof.Machine
end

