-- ==== Sys2Proof/Machine/Flags.lean ====
section
/-! DEFINITION. The block has no flags or condition codes (10_state.md R29). Its output ports are functions of the
registers and of `rst` in the same cycle (R31). -/

namespace Sys2Proof.Machine

/-- `carrier_en = CE` (R31). -/
def carrierEn (s : State) : Bool := s.ce

/-- `cmd_ready = (SEG == IDLE) && !rst` (R31). -/
def cmdReady (s : State) : Bool := s.seg == .idle && !s.now.rst

/-- `btn = BTN` (R31). -/
def btnPort (s : State) : BitVec 4 := s.btn

/-- `tx_active`: SEG is a frame segment (R31). -/
def txActive (s : State) : Bool := inFrame s.seg

end Sys2Proof.Machine
end

