-- ==== Sys2Proof/Machine/Sequencer.lean ====
section
/-! DEFINITION. The frame assembler and the successor rules of every segment (43_frame_encoder.md R141 to R147,
40_cycle_waiter.md R106, 42_pulse_primitives.md R132 and R133, 45_command_dispatcher.md R172 and R173), and the counting
of one tick event (R102). Every right-hand side reads the registers as they were in the cycle (00_scope.md R10). -/

namespace Sys2Proof.Machine

/-- The gap length of a bit cell is the bit's value (R147). -/
def gapLen (p : Params) (b : Bool) : Duration := if b then p.tOneGap else p.tZeroGap

/-- The frame, `(payload << 24) | address_constant` (R141; 90_conflicts.md C1). -/
def assembleFrame (p : Params) (payload : Payload) : Frame := payload ++ p.addr

/-- The start of a frame (R141); `delayAfter` is the bit d written to DLY. -/
def startFrame (payload : Payload) (delayAfter : Bool) (s : State) : State :=
  { s with
    f   := assembleFrame s.cfg.toParams payload
    i   := 0#6
    dly := delayAfter
    ce  := true
    seg := .preMark
    cnt := ticksOfDuration s.cfg.tPreMark }

/-- `SEG <- DELAY; CNT <- zext_24(DELAY_TICKS)` (45_command_dispatcher.md R171, R172). -/
def enterDelay (s : State) : State := enterSegment .delay s.cfg.delayTicks s

/-- The bit cell of index `k` begins with its gap: `CE <- 0; SEG <- BIT_GAP; I <- k; CNT <- gapLen(F[k])` (R144, R146). -/
def startBitCell (k : BitVec 6) (s : State) : State :=
  { s with
    ce  := false
    seg := .bitGap
    i   := k
    cnt := ticksOfDuration (gapLen s.cfg.toParams (s.f.getLsbD k.toNat)) }

/-- End of PRE_MARK (R142). -/
def endPreMark (s : State) : State :=
  setCarrier false (enterSegment .preGap (ticksOfDuration s.cfg.tPreGap) s)

/-- End of PRE_GAP (R143). -/
def endPreGap (s : State) : State :=
  setCarrier true (enterSegment .hdrMark (ticksOfDuration s.cfg.tBitMark) s)

/-- End of HDR_MARK (R144). -/
def endHdrMark (s : State) : State := startBitCell 0#6 s

/-- End of BIT_GAP (R145). -/
def endBitGap (s : State) : State :=
  setCarrier true (enterSegment .bitMark (ticksOfDuration s.cfg.tBitMark) s)

/-- The delay entry after a frame (45_command_dispatcher.md R172). -/
def delayAfterFrame (s : State) : State := setCarrier false (enterDelay { s with dly := false })

/-- End of BIT_MARK (R146): the next cell, the delay, or the end of the frame. -/
def endBitMark (s : State) : State :=
  if s.i < 47#6 then startBitCell (s.i + 1#6) s
  else if s.dly then delayAfterFrame s
  else setCarrier false (goIdle s)

/-- End of a WAIT segment (R106): CE unchanged. -/
def endWait (s : State) : State := goIdle s

/-- End of a MARK segment (R132): the disable of mark. -/
def endMark (s : State) : State := setCarrier false (goIdle s)

/-- End of a GAP segment (R133): CE stays. -/
def endGap (s : State) : State := goIdle s

/-- End of a DELAY segment (R173): CE unchanged. -/
def endDelay (s : State) : State := goIdle s

/-- `endSegment(SEG)`: the successor rule that 30_encoding.md R80 names for the segment. IDLE is no segment and has no
successor rule; the clock cycle never asks for it, and nothing changes (log 7). -/
def endSegment (s : State) : State :=
  match s.seg with
  | .idle    => s
  | .wait    => endWait s
  | .mark    => endMark s
  | .gap     => endGap s
  | .preMark => endPreMark s
  | .preGap  => endPreGap s
  | .hdrMark => endHdrMark s
  | .bitGap  => endBitGap s
  | .bitMark => endBitMark s
  | .delay   => endDelay s

/-- `CNT <- CNT - 1` (R102). -/
def countDown (s : State) : State := { s with cnt := s.cnt - 1#24 }

/-- A tick event in a counting segment (R102): `if CNT > 1 then CNT <- CNT - 1 else endSegment(SEG)`. -/
def countTick (s : State) : State :=
  if 1#24 < s.cnt then countDown s else endSegment s

end Sys2Proof.Machine
end

