-- ==== Sys2Proof/Machine/ButtonDecoder.lean ====
section
/-! DEFINITION. The decode function and DECODE (44_button_decoder.md R160, R161). -/

namespace Sys2Proof.Machine

/-- `L < TH[k]`, the numbers compared as they stand (R160). -/
def belowThreshold (p : Params) (l : Level) (b : Button) : Bool := decide ((l.toNat : Int) < p.th b)

/-- The decode function of R160, its tests in the order of the rule. The last line is the reachable fallback
(90_conflicts.md C2, C3). -/
def decodeLevel (p : Params) (l : Level) : ButtonState :=
  if p.noneAbove < l then none
  else if belowThreshold p l .exit then some .exit
  else if belowThreshold p l .ok then some .ok
  else if belowThreshold p l .down then some .down
  else if belowThreshold p l .up then some .up
  else if belowThreshold p l .menu then some .menu
  else if belowThreshold p l .guide then some .guide
  else if belowThreshold p l .power then some .power
  else if belowThreshold p l .input then some .input
  else none

/-- DECODE L (R161): `BTN <- decode(L)`. -/
def execDecode (l : Level) (s : State) : Host.Outcome State Fault Refusal :=
  .next (setButton (decodeLevel s.cfg.toParams l) s)

end Sys2Proof.Machine
end

