-- ==== Sys2Proof/Machine/CarrierGate.lean ====
section
/-! DEFINITION. ENABLE and DISABLE (41_carrier_gate.md R120, R121). -/

namespace Sys2Proof.Machine

/-- ENABLE (R120): `CE <- 1`. -/
def execEnable (s : State) : Host.Outcome State Fault Refusal := .next (setCarrier true s)

/-- DISABLE (R121): `CE <- 0`. -/
def execDisable (s : State) : Host.Outcome State Fault Refusal := .next (setCarrier false s)

end Sys2Proof.Machine
end

