-- ==== Sys2Proof/Machine/CommandDispatcher.lean ====
section
/-! DEFINITION. The command table read and DISPATCH (45_command_dispatcher.md R170, R171). -/

namespace Sys2Proof.Machine

/-- `RomRead(b)`: the command table entry of a button (R170). It has no entry for none, so its argument is a button. -/
def romRead (p : Params) (b : Button) : Payload := p.cmdTable.get b

/-- What DISPATCH does with a button state, after BTN is written (R171): a button's frame with the delay after it; with
none, the delay alone, CE unchanged. -/
def dispatchButton (b : ButtonState) (s : State) : State :=
  match b with
  | some k => startFrame (romRead s.cfg.toParams k) true s
  | none   => enterDelay s

/-- DISPATCH L (R171): one iteration of the control loop. -/
def execDispatch (l : Level) (s : State) : Host.Outcome State Fault Refusal :=
  .next (dispatchButton (decodeLevel s.cfg.toParams l) (setButton (decodeLevel s.cfg.toParams l) s))

end Sys2Proof.Machine
end

