-- ==== Sys2Proof/Machine/CycleWaiter.lean ====
section
/-! DEFINITION. WAIT (40_cycle_waiter.md R105). A meaning is the operation's start action, in its acceptance cycle. -/

namespace Sys2Proof.Machine

/-- WAIT N (R105): N = 0 completes at once and writes nothing; the carrier is left as it is. -/
def execWait (n : Ticks) (s : State) : Host.Outcome State Fault Refusal :=
  if n = 0#24 then .next s else .next (enterSegment .wait n s)

end Sys2Proof.Machine
end

