-- ==== Sys2Proof/Machine/FrameEncoder.lean ====
section
/-! DEFINITION. TRANSMIT (43_frame_encoder.md R140). -/

namespace Sys2Proof.Machine

/-- TRANSMIT P (R140): one frame, with nothing after it. -/
def execTransmit (p : Payload) (s : State) : Host.Outcome State Fault Refusal := .next (startFrame p false s)

end Sys2Proof.Machine
end

