-- ==== Sys2Proof/Machine/PulsePrimitives.lean ====
section
/-! DEFINITION. MARK and GAP (42_pulse_primitives.md R130, R131). -/

namespace Sys2Proof.Machine

/-- MARK D (R130): with D = 0 the net effect is the carrier off. -/
def execMark (d : Duration) (s : State) : Host.Outcome State Fault Refusal :=
  if d = 0#8 then .next (setCarrier false s)
  else .next (setCarrier true (enterSegment .mark (ticksOfDuration d) s))

/-- GAP D (R131): the carrier is turned off at the start, whatever it was. -/
def execGap (d : Duration) (s : State) : Host.Outcome State Fault Refusal :=
  if d = 0#8 then .next (setCarrier false s)
  else .next (setCarrier false (enterSegment .gap (ticksOfDuration d) s))

end Sys2Proof.Machine
end

