-- ==== Sys2Proof/Machine/Dispatch.lean ====
section
/-! DEFINITION. exec is `start(op)` of 40_cycle_waiter.md R102: the start action of each operation of the opcode table. -/

namespace Sys2Proof.Machine

def exec (i : Instr) (s : State) : Host.Outcome State Fault Refusal :=
  match i with
  | .disable => Sys2Proof.Machine.execDisable s
  | .enable => Sys2Proof.Machine.execEnable s
  | .wait n => Sys2Proof.Machine.execWait n s
  | .gap d => Sys2Proof.Machine.execGap d s
  | .mark d => Sys2Proof.Machine.execMark d s
  | .transmit p => Sys2Proof.Machine.execTransmit p s
  | .decode l => Sys2Proof.Machine.execDecode l s
  | .dispatch l => Sys2Proof.Machine.execDispatch l s

end Sys2Proof.Machine
end

