-- ==== Sys2Proof/Machine/ClockCycle.lean ====
section
/-! DEFINITION. One `clk` cycle (40_cycle_waiter.md R102), and how a command is put on the command port. -/

namespace Sys2Proof.Machine

/-- A cycle with `rst` = 0 and SEG = IDLE (R102): the offered command starts; a tick event is not counted (R103). -/
def idleCycle (x : Inputs) (s : State) : Host.Outcome State Fault Refusal :=
  if x.cmdValid then exec (decodeCmd x.cmd) s else .next s

/-- A cycle with `rst` = 0 in a counting segment (R102): a tick event counts; no command is accepted (R104). -/
def busyCycle (x : Inputs) (s : State) : Host.Outcome State Fault Refusal :=
  if x.tick then .next (countTick s) else .next s

/-- The step function of R102, the cases in its order of priority. -/
def clockCycle (s : State) : Host.Outcome State Fault Refusal :=
  if s.now.rst then .next (resetRegisters s.advance)
  else if s.seg = .idle then idleCycle s.now s.advance
  else busyCycle s.now s.advance

/-- The inputs of a cycle in which the environment offers command word `w` and nothing else. -/
def offer (w : CmdWord) : Inputs := { rst := false, tick := false, cmdValid := true, cmd := w }

/-- The inputs of a cycle in which the environment drives nothing. -/
def quiet : Inputs := { rst := false, tick := false, cmdValid := false, cmd := 0#27 }

/-- The cycle that offers a number: a number that does not fit the port is no command word and is not offered (log 9). -/
def offerNat (w : Nat) : Inputs :=
  match wordOfNat w with
  | .ok c    => offer c
  | .error _ => quiet

/-- The block ready for a command. In IDLE nothing is changed. In a segment the operation in flight is taken as over
(log 4): SEG and CNT as in IDLE (10_state.md R25) and no delay pending (R27). -/
def madeReady (s : State) : State :=
  if s.seg = .idle then s else { s with seg := .idle, cnt := 0#24, dly := false }

/-- The state in which the very next cycle offers the number `w` to a block that is ready for it (log 4). -/
def offerNext (w : Nat) (s : State) : State :=
  { madeReady s with inputs := offerNat w :: s.inputs }

end Sys2Proof.Machine
end

