-- ==== Sys2Proof/Machine/Step.lean ====
section
/-! DEFINITION. step, one `clk` cycle (10_state.md R20, 40_cycle_waiter.md R102), and the state that offers a given
command word in the next cycle. -/

namespace Sys2Proof.Machine

/-- One `clk` cycle. -/
def step (s : State) : Host.Outcome State Fault Refusal := clockCycle s

/-- s with the command word `w` of the opcode table's numbering on the command port in the very next cycle (log 4). -/
def State.withFetchWord (s : State) (nbits w : Nat) : State := offerNext (tableNumber nbits w) s

end Sys2Proof.Machine
end

