-- ==== Sys2Proof/Machine/Assembler.lean ====
section
/-! DEFINITION. The assembler of IRCMD v1: the encoding of a line (30_encoding.md R78), the expansion of the
pseudo-instructions (R79) and the reading of assembly text. What R78 leaves open of the text is log 13. -/

namespace Sys2Proof.Machine

/-- The operation of a core line whose operand is in range; none for a line that is refused (R78) and for a
pseudo-instruction. -/
def lineInstr (l : AsmLine) : Option Instr :=
  if l.wellFormed then
    match l with
    | .disable    => some .disable
    | .enable     => some .enable
    | .wait n     => some (.wait (BitVec.ofNat 24 n))
    | .gap d      => some (.gap (BitVec.ofNat 8 d))
    | .mark d     => some (.mark (BitVec.ofNat 8 d))
    | .transmit p => some (.transmit (BitVec.ofNat 24 p))
    | .decode l   => some (.decode (BitVec.ofNat 10 l))
    | .dispatch l => some (.dispatch (BitVec.ofNat 10 l))
    | .nop | .press _ | .release | .sendbtn _ | .bit0 | .bit1 => none
  else none

/-- The core lines of a line: the expansion column of R79, and a core line itself. A negative base point is no
operand, so PRESS has then no expansion (log 13). -/
def expandLine (p : Params) (l : AsmLine) : Option (List AsmLine) :=
  match l with
  | .nop       => some [.wait 0]
  | .press k   =>
    match buttonOfId k with
    | some b => if 0 ≤ p.base.get b then some [.dispatch (p.base.get b).toNat] else none
    | none   => none
  | .release   => some [.dispatch 1023]
  | .sendbtn k => (buttonOfId k).map (fun b => [.transmit (romRead p b).toNat])
  | .bit0      => some [.gap p.tZeroGap.toNat, .mark p.tBitMark.toNat]
  | .bit1      => some [.gap p.tOneGap.toNat, .mark p.tBitMark.toNat]
  | .disable | .enable | .wait _ | .gap _ | .mark _ | .transmit _ | .decode _ | .dispatch _ => some [l]

/-- The command words of a line, none if it is refused (R78, R79). -/
def assembleLine (p : Params) (l : AsmLine) : Option (List CmdWord) :=
  (expandLine p l).bind (fun ls => ls.mapM (fun x => (lineInstr x).map encode))

/-- The value of a digit. -/
def digitValue (c : Char) : Option Nat :=
  if 48 ≤ c.toNat ∧ c.toNat ≤ 57 then some (c.toNat - 48)
  else if 65 ≤ c.toNat ∧ c.toNat ≤ 70 then some (c.toNat - 55)
  else if 97 ≤ c.toNat ∧ c.toNat ≤ 102 then some (c.toNat - 87)
  else none

/-- The value of a run of digits in a base, continuing from `acc`. -/
def digitsValue (radix : Nat) : List Char → Nat → Option Nat
  | [], acc      => some acc
  | c :: cs, acc =>
    match digitValue c with
    | some v => if v < radix then digitsValue radix cs (acc * radix + v) else none
    | none   => none

/-- "a decimal number or a `0x` hexadecimal number" (R78). -/
def numberOfText : List Char → Option Nat
  | [] => none
  | ['0', 'x'] => none
  | '0' :: 'x' :: cs => digitsValue 16 cs 0
  | cs => digitsValue 10 cs 0

/-- The text of a line before its comment: "`;` starts a comment that runs to the end of the line" (R78). -/
def withoutComment (cs : List Char) : List Char := cs.takeWhile (fun c => c != ';')

/-- The words of a line, separated by spaces and tabs (log 13). -/
def wordsOfLine (cs : List Char) : List (List Char) :=
  (cs.splitOnP (fun c => c == ' ' || c == '\t')).filter (fun w => !w.isEmpty)

/-- The line with a mnemonic that takes no operand. -/
def bareLine (m : List Char) : Option AsmLine :=
  if m = "DISABLE".toList then some .disable
  else if m = "ENABLE".toList then some .enable
  else if m = "NOP".toList then some .nop
  else if m = "RELEASE".toList then some .release
  else if m = "BIT0".toList then some .bit0
  else if m = "BIT1".toList then some .bit1
  else none

/-- The line with a mnemonic that takes one operand. -/
def operandLine (m : List Char) (n : Nat) : Option AsmLine :=
  if m = "WAIT".toList then some (.wait n)
  else if m = "GAP".toList then some (.gap n)
  else if m = "MARK".toList then some (.mark n)
  else if m = "TRANSMIT".toList then some (.transmit n)
  else if m = "DECODE".toList then some (.decode n)
  else if m = "DISPATCH".toList then some (.dispatch n)
  else if m = "PRESS".toList then some (.press n)
  else if m = "SENDBTN".toList then some (.sendbtn n)
  else none

/-- One line of text: its command words, no word for a line with no command on it (log 13), none if it is refused. -/
def assembleTextLine (p : Params) (cs : List Char) : Option (List CmdWord) :=
  match wordsOfLine (withoutComment cs) with
  | []     => some []
  | [m]    => (bareLine m).bind (assembleLine p)
  | [m, x] => (numberOfText x).bind (fun n => (operandLine m n).bind (assembleLine p))
  | _      => none

/-- A text, "one command per line" (R78): the command words in order, none if a line is refused. DESIGN CHOICE: a
newline alone ends a line, so a carriage return outside a comment makes its line refused (log 13). -/
def assembleText (p : Params) (cs : List Char) : Option (List CmdWord) :=
  ((cs.splitOnP (fun c => c == '\n')).mapM (assembleTextLine p)).map List.flatten

end Sys2Proof.Machine
end

