-- ==== Sys2Proof/Machine/Waveform.lean ====
section
/-! DEFINITION. The block's observable waveform: the tick-sample stream of a run (40_cycle_waiter.md R101), and the
streams and tick counts the rules give for a frame (43_frame_encoder.md R149, R151), for a DISPATCH
(45_command_dispatcher.md R175) and for every operation (70_reset_and_hazards.md R233). -/

namespace Sys2Proof.Machine

/-- The tick sample of the present cycle, if the cycle is a tick event: the value of CE (R100, R101; log 12). -/
def tickSample (s : State) : List Bool := if s.now.tick then [s.ce] else []

/-- The tick-sample stream of the next `k` cycles (R101). -/
def samples : Nat → State → List Bool
  | 0, _ => []
  | k + 1, s =>
    match step s with
    | .next t    => tickSample s ++ samples k t
    | .fault _   => []
    | .refused _ => []

/-- How many of the cycles are tick events (R100). -/
def tickCount (xs : List Inputs) : Nat := xs.countP (fun x => x.tick)

/-- The number of 1 bits (00_scope.md R9). -/
def popcount {w : Nat} (v : BitVec w) : Nat := (List.range w).countP (fun k => v.getLsbD k)

/-- One counted interval: the level of CE and the length in ticks. -/
abbrev Pulse := Bool × Nat

/-- The samples of a sequence of pulses: `v^n` is n samples equal to v (R149). -/
def samplesOf (ps : List Pulse) : List Bool := ps.flatMap (fun r => List.replicate r.2 r.1)

/-- The ticks of a sequence of pulses. -/
def ticksOf (ps : List Pulse) : Nat := (ps.map Prod.snd).sum

/-- One bit cell: the gap of the bit's value, then the bit-mark (R82, R147). -/
def cellPulses (p : Params) (b : Bool) : List Pulse := [(false, (gapLen p b).toNat), (true, p.tBitMark.toNat)]

/-- The pulse sequence of a frame (30_encoding.md R82, R149), bit 0 first (20_memory.md R54). -/
def framePulses (p : Params) (f : Frame) : List Pulse :=
  [(true, p.tPreMark.toNat), (false, p.tPreGap.toNat), (true, p.tBitMark.toNat)] ++
    (List.range 48).flatMap (fun k => cellPulses p (f.getLsbD k))

/-- The duration of a frame in ticks, by the formula of R151. -/
def frameTicks (p : Params) (f : Frame) : Nat :=
  p.tPreMark.toNat + p.tPreGap.toNat + p.tBitMark.toNat + 48 * p.tBitMark.toNat +
    popcount f * p.tOneGap.toNat + (48 - popcount f) * p.tZeroGap.toNat

/-- The duration of one DISPATCH in ticks, by the formula of R175. -/
def dispatchTicks (p : Params) (l : Level) : Nat :=
  (match decodeLevel p l with
   | some b => frameTicks p (assembleFrame p (romRead p b))
   | none   => 0) + p.delayTicks.toNat

/-- How many tick events after its acceptance cycle an operation takes (R233): 0 when it completes in that cycle. -/
def operationTicks (p : Params) : Instr → Nat
  | .disable    => 0
  | .enable     => 0
  | .wait n     => n.toNat
  | .gap d      => d.toNat
  | .mark d     => d.toNat
  | .transmit x => frameTicks p (assembleFrame p x)
  | .decode _   => 0
  | .dispatch l => dispatchTicks p l

/-- The pulses of an operation after its acceptance cycle, where CE was `ce` in that cycle (R105, R134, R149, R171, R177). -/
def operationPulses (p : Params) (ce : Bool) : Instr → List Pulse
  | .disable    => []
  | .enable     => []
  | .wait n     => [(ce, n.toNat)]
  | .gap d      => [(false, d.toNat)]
  | .mark d     => [(true, d.toNat)]
  | .transmit x => framePulses p (assembleFrame p x)
  | .decode _   => []
  | .dispatch l =>
    match decodeLevel p l with
    | some b => framePulses p (assembleFrame p (romRead p b)) ++ [(false, p.delayTicks.toNat)]
    | none   => [(ce, p.delayTicks.toNat)]

end Sys2Proof.Machine
end

