-- ==== Sys2Proof/Safety.lean ====
section
/-! DEFINITION. The predicates on states and runs that claims are stated in: the invariant of 10_state.md R36, agreement
on the registers, the environment's behaviour over some cycles, and the integrator's duty on DELAY_TICKS. -/

namespace Sys2Proof.Machine

/-- What R36 says of every state reachable from reset, line by line. -/
structure State.Inv (s : State) : Prop where
  seg_code     : (segCode s.seg).toNat ≤ 9
  idle_iff     : s.seg = .idle ↔ s.cnt = 0#24
  index        : s.i.toNat ≤ 47
  button       : s.btn.toNat ≤ 8
  delayPending : s.dly = true → inFrame s.seg = true
  indexZero    : s.seg = .preMark ∨ s.seg = .preGap ∨ s.seg = .hdrMark → s.i = 0#6
  markOn       : s.seg = .mark → s.ce = true
  gapOff       : s.seg = .gap ∨ s.seg = .preGap ∨ s.seg = .bitGap → s.ce = false
  frameMarkOn  : s.seg = .preMark ∨ s.seg = .hdrMark ∨ s.seg = .bitMark → s.ce = true

/-- The two states agree on the seven registers of R23. -/
structure SameRegisters (s t : State) : Prop where
  ce  : t.ce = s.ce
  seg : t.seg = s.seg
  cnt : t.cnt = s.cnt
  f   : t.f = s.f
  i   : t.i = s.i
  dly : t.dly = s.dly
  btn : t.btn = s.btn

/-- No register of the block is left at anything but its reset value (R34). -/
structure AtReset (s : State) : Prop where
  ce  : s.ce = false
  seg : s.seg = .idle
  cnt : s.cnt = 0#24
  f   : s.f = 0#48
  i   : s.i = 0#6
  dly : s.dly = false
  btn : s.btn = 0#4

/-- Reset is not asserted in any of the cycles. -/
def NoReset (xs : List Inputs) : Prop := ∀ x ∈ xs, x.rst = false

/-- The environment offers no command in any of the cycles. -/
def NoCommand (xs : List Inputs) : Prop := ∀ x ∈ xs, x.cmdValid = false

/-- No cycle is a tick event. -/
def NoTick (xs : List Inputs) : Prop := ∀ x ∈ xs, x.tick = false

/-- The cycles end with the n-th tick event among them, and `rst` = 0 in all of them. -/
structure EndsAtTick (n : Nat) (xs : List Inputs) : Prop where
  noReset : NoReset xs
  ticks   : tickCount xs = n
  last    : ∃ x, xs.getLast? = some x ∧ x.tick = true

/-- The state whose next cycles have the inputs `xs`, and the environment after them as in `s`. -/
def State.driven (s : State) (xs : List Inputs) : State := { s with inputs := xs ++ s.inputs }

/-- `DELAY_TICKS >= ceil(0.075 * CARRIER_HZ)` (00_scope.md R7): a duty of the integrator, not a range the model checks
(95_test_vectors.md). -/
def Params.delayDutyMet (p : Params) : Prop := 75 * p.carrierHz ≤ 1000 * p.delayTicks.toNat

end Sys2Proof.Machine
end

