-- ==== Sys2Proof/Certificates/Slice0/Obligations.lean ====
section
/-! DEFINITION. The statements about the model, each from numbered rules of spec/. `s.driven xs` is `s` with the inputs
of its next cycles given by `xs`; `core.run xs.length (s.driven xs)` is the state after exactly those cycles. Rules that
the spec marks as derived from its other rules are named in the docstrings all the same; OBLIGATIONS.json says which. -/

open Sys2Proof Sys2Proof.Machine

/-! ### Encoding and assembly -/

/-- Words written out from R70 and R72 (the examples of R78 and R79, and words with unread bits set, R75) decode to the
operations they stand for. -/
def Obligations.WrittenOutWordsDecode : Prop :=
  decodeCmd 0x0000000#27 = .disable ∧ decodeCmd 0x0FFFFFF#27 = .disable ∧
  decodeCmd 0x1000000#27 = .enable ∧ decodeCmd 0x1ABCDEF#27 = .enable ∧
  decodeCmd 0x2000003#27 = .wait 3#24 ∧ decodeCmd 0x2FFFFFF#27 = .wait 0xFFFFFF#24 ∧
  decodeCmd 0x3000033#27 = .gap 51#8 ∧ decodeCmd 0x30001FF#27 = .gap 255#8 ∧
  decodeCmd 0x4000011#27 = .mark 17#8 ∧ decodeCmd 0x4FFFF03#27 = .mark 3#8 ∧
  decodeCmd 0x5C94900#27 = .transmit 0xC94900#24 ∧
  decodeCmd 0x6000064#27 = .decode 100#10 ∧ decodeCmd 0x6FFFC64#27 = .decode 100#10 ∧
  decodeCmd 0x70003FF#27 = .dispatch 1023#10 ∧ decodeCmd 0x7FFFC64#27 = .dispatch 100#10

/-- Decoding an encoded instruction gives it back, with every operand at every value; and encoding a decoded word gives
the word back with exactly the bits cleared that R73 does not read. -/
def Obligations.DecodeAndEncodeAgree : Prop :=
  (∀ i : Instr, i.wellFormed = true ∧ decodeCmd (encode i) = i) ∧
  (∀ w : CmdWord, encode (decodeCmd w) = w &&& readMask (decodeCmd w))

/-- R75: two cycles whose command words differ only in bits that are not read have the same next state and the same
outputs; and assembly writes those bits as 0. -/
def Obligations.UnreadBitsHaveNoEffect : Prop :=
  (∀ (s : State) (x : Inputs) (xs : List Inputs) (w : CmdWord),
    w &&& readMask (decodeCmd w) = x.cmd &&& readMask (decodeCmd x.cmd) →
    step (s.driven ({ x with cmd := w } :: xs)) = step (s.driven (x :: xs)) ∧
    carrierEn (s.driven ({ x with cmd := w } :: xs)) = carrierEn (s.driven (x :: xs)) ∧
    cmdReady (s.driven ({ x with cmd := w } :: xs)) = cmdReady (s.driven (x :: xs)) ∧
    btnPort (s.driven ({ x with cmd := w } :: xs)) = btnPort (s.driven (x :: xs)) ∧
    txActive (s.driven ({ x with cmd := w } :: xs)) = txActive (s.driven (x :: xs))) ∧
  (∀ (p : Params) (l : AsmLine) (ws : List CmdWord), assembleLine p l = some ws →
    ∀ w ∈ ws, w &&& readMask (decodeCmd w) = w)

/-- R78: a line in range is the word `(OP << 24) | operand`; a line out of range is refused, never truncated. -/
def Obligations.AssemblerEncodesOrRefuses : Prop :=
  ∀ p : Params,
    assembleLine p .disable = some [0x0000000#27] ∧
    assembleLine p .enable = some [0x1000000#27] ∧
    (∀ n, assembleLine p (.wait n) = if n < 2 ^ 24 then some [BitVec.ofNat 27 (2 * 2 ^ 24 + n)] else none) ∧
    (∀ n, assembleLine p (.gap n) = if n < 256 then some [BitVec.ofNat 27 (3 * 2 ^ 24 + n)] else none) ∧
    (∀ n, assembleLine p (.mark n) = if n < 256 then some [BitVec.ofNat 27 (4 * 2 ^ 24 + n)] else none) ∧
    (∀ n, assembleLine p (.transmit n) = if n < 2 ^ 24 then some [BitVec.ofNat 27 (5 * 2 ^ 24 + n)] else none) ∧
    (∀ n, assembleLine p (.decode n) = if n < 1024 then some [BitVec.ofNat 27 (6 * 2 ^ 24 + n)] else none) ∧
    (∀ n, assembleLine p (.dispatch n) = if n < 1024 then some [BitVec.ofNat 27 (7 * 2 ^ 24 + n)] else none)

/-- R79: the words of the pseudo-instructions with the default parameters, and what they are for. -/
def Obligations.PseudoInstructionWords : Prop :=
  ∀ (delay : Fin 16777215) (carrier clk : Nat), ∀ p, p = Config.defaultParams delay carrier clk →
    assembleLine p .nop = some [0x2000000#27] ∧
    (∀ s : State, exec (decodeCmd 0x2000000#27) s = .next s) ∧
    assembleLine p (.press 1) = some [0x7000000#27] ∧ assembleLine p (.press 2) = some [0x700007F#27] ∧
    assembleLine p (.press 3) = some [0x7000100#27] ∧ assembleLine p (.press 4) = some [0x7000184#27] ∧
    assembleLine p (.press 5) = some [0x7000209#27] ∧ assembleLine p (.press 6) = some [0x700028A#27] ∧
    assembleLine p (.press 7) = some [0x700030B#27] ∧ assembleLine p (.press 8) = some [0x700038C#27] ∧
    (∀ b : Button, decodeLevel p (BitVec.ofInt 10 (p.base.get b)) = some b) ∧
    assembleLine p .release = some [0x70003FF#27] ∧ decodeLevel p 1023#10 = none ∧
    assembleLine p (.sendbtn 1) = some [0x554D400#27] ∧ assembleLine p (.sendbtn 2) = some [0x5C94900#27] ∧
    assembleLine p (.sendbtn 3) = some [0x5CB4B00#27] ∧ assembleLine p (.sendbtn 4) = some [0x5CA4A00#27] ∧
    assembleLine p (.sendbtn 5) = some [0x5D25200#27] ∧ assembleLine p (.sendbtn 6) = some [0x50E8709#27] ∧
    assembleLine p (.sendbtn 7) = some [0x5BD3D00#27] ∧ assembleLine p (.sendbtn 8) = some [0x5850500#27] ∧
    assembleLine p .bit0 = some [0x3000010#27, 0x4000011#27] ∧
    assembleLine p .bit1 = some [0x3000033#27, 0x4000011#27]

/-! ### The step, reset and the outputs -/

/-- In an acceptance cycle the step is the meaning of the decoded command, in the state whose present inputs are gone;
nothing else of the state has changed before it runs. -/
def Obligations.StepRunsDecodedInstruction : Prop :=
  ∀ s : State, s.now.rst = false → s.seg = .idle → s.now.cmdValid = true →
    step s = exec (decodeCmd s.now.cmd) s.advance ∧ SameRegisters s s.advance ∧ s.advance.cfg = s.cfg ∧
    s.advance.inputs = s.inputs.tail

/-- R102, whole: the cases of the step function with the inputs given as they stand in the rule, and the successor rule
that R80 names for each segment. -/
def Obligations.CycleDoesExactlyOneCase : Prop :=
  (∀ (s : State) (tick cmdValid : Bool) (cmd : CmdWord),
    step (s.driven [⟨true, tick, cmdValid, cmd⟩]) =
      .next { s with ce := false, seg := .idle, cnt := 0#24, f := 0#48, i := 0#6, dly := false, btn := 0#4, cycle := s.cycle + 1 }) ∧
  (∀ (s : State) (tick : Bool) (cmd : CmdWord), s.seg = .idle →
    step (s.driven [⟨false, tick, true, cmd⟩]) = exec (decodeCmd cmd) { s with cycle := s.cycle + 1 }) ∧
  (∀ (s : State) (tick : Bool) (cmd : CmdWord), s.seg = .idle →
    step (s.driven [⟨false, tick, false, cmd⟩]) = .next { s with cycle := s.cycle + 1 }) ∧
  (∀ (s : State) (cmdValid : Bool) (cmd : CmdWord), s.seg ≠ .idle → 1#24 < s.cnt →
    step (s.driven [⟨false, true, cmdValid, cmd⟩]) = .next { s with cnt := s.cnt - 1#24, cycle := s.cycle + 1 }) ∧
  (∀ (s : State) (cmdValid : Bool) (cmd : CmdWord), s.seg ≠ .idle → ¬ 1#24 < s.cnt →
    step (s.driven [⟨false, true, cmdValid, cmd⟩]) = .next (endSegment { s with cycle := s.cycle + 1 })) ∧
  (∀ (s : State) (cmdValid : Bool) (cmd : CmdWord), s.seg ≠ .idle →
    step (s.driven [⟨false, false, cmdValid, cmd⟩]) = .next { s with cycle := s.cycle + 1 }) ∧
  (∀ s : State,
    (s.seg = .wait → endSegment s = endWait s) ∧ (s.seg = .mark → endSegment s = endMark s) ∧
    (s.seg = .gap → endSegment s = endGap s) ∧ (s.seg = .preMark → endSegment s = endPreMark s) ∧
    (s.seg = .preGap → endSegment s = endPreGap s) ∧ (s.seg = .hdrMark → endSegment s = endHdrMark s) ∧
    (s.seg = .bitGap → endSegment s = endBitGap s) ∧ (s.seg = .bitMark → endSegment s = endBitMark s) ∧
    (s.seg = .delay → endSegment s = endDelay s))

/-- R34 and R220: after an edge with `rst` = 1 every register has its reset value, whatever the state and the other
inputs; `cmd_ready` is 0 in that cycle. -/
def Obligations.ResetEdgeGivesResetValues : Prop :=
  AtReset State.reset ∧
  ∀ s : State, s.now.rst = true →
    cmdReady s = false ∧ ∃ t, step s = .next t ∧ AtReset t ∧ t.cfg = s.cfg ∧ t.inputs = s.inputs.tail

/-- R223: one or more cycles with `rst` = 1 leave the reset state and change nothing else, and the first command is
accepted in the first cycle with `rst` = 0. -/
def Obligations.HoldingResetKeepsResetState : Prop :=
  ∀ (s : State) (xs : List Inputs), xs ≠ [] → (∀ x ∈ xs, x.rst = true) →
    ∃ t, core.run xs.length (s.driven xs) = .next t ∧ AtReset t ∧ t.cfg = s.cfg ∧ t.inputs = s.inputs ∧
      ∀ y : Inputs, y.rst = false →
        cmdReady (t.driven [y]) = true ∧
        (y.cmdValid = true → step (t.driven [y]) = exec (decodeCmd y.cmd) (t.driven [y]).advance)

/-- R200: no word is illegal, no operand out of range, no operation has a failure case: every operation and every step
answers a next state. -/
def Obligations.NothingEverStops : Prop :=
  (∀ w : Nat, w < 2 ^ 27 → ∃ i, decodeNat w = .ok i) ∧
  (∀ (i : Instr) (s : State), i.wellFormed = true ∧ ∃ t, exec i s = .next t) ∧
  (∀ s : State, ∃ t, step s = .next t)

/-- R31: the four outputs, and that they depend on nothing but the registers and `rst`. -/
def Obligations.OutputsAreFunctionsOfRegisters : Prop :=
  (∀ s : State, carrierEn s = s.ce ∧ (cmdReady s = true ↔ s.seg = .idle ∧ s.now.rst = false) ∧ btnPort s = s.btn ∧
    (txActive s = true ↔
      s.seg = .preMark ∨ s.seg = .preGap ∨ s.seg = .hdrMark ∨ s.seg = .bitGap ∨ s.seg = .bitMark)) ∧
  (∀ s t : State, SameRegisters s t →
    carrierEn s = carrierEn t ∧ btnPort s = btnPort t ∧ txActive s = txActive t ∧
    (s.now.rst = t.now.rst → cmdReady s = cmdReady t))

/-- R103: a tick event in a cycle with SEG = IDLE, or with `rst` = 1, changes nothing: the cycle ends as without it. -/
def Obligations.TickInIdleIsNotCounted : Prop :=
  ∀ (s : State) (x : Inputs) (xs : List Inputs), s.seg = .idle ∨ x.rst = true →
    step (s.driven ({ x with tick := true } :: xs)) = step (s.driven ({ x with tick := false } :: xs)) ∧
    (x.rst = false → x.cmdValid = false → ∃ t, step (s.driven ({ x with tick := true } :: xs)) = .next t ∧ SameRegisters s t)

/-- R104: while SEG is not IDLE, `cmd_ready` is 0 and what is offered makes no difference; and a segment goes on until
its successor rule ends it, `rst` apart. -/
def Obligations.BusyBlockAcceptsNoCommand : Prop :=
  (∀ (s : State) (x : Inputs) (xs : List Inputs) (v : Bool) (w : CmdWord), s.seg ≠ .idle →
    cmdReady (s.driven (x :: xs)) = false ∧
    step (s.driven ({ x with cmdValid := v, cmd := w } :: xs)) = step (s.driven (x :: xs))) ∧
  (∀ s t : State, s.seg ≠ .idle → s.now.rst = false → step s = .next t →
    (t.seg = s.seg ∧ t.ce = s.ce ∧ t.f = s.f ∧ t.i = s.i ∧ t.dly = s.dly ∧ t.btn = s.btn) ∨
    (s.now.tick = true ∧ ¬ 1#24 < s.cnt ∧ SameRegisters (endSegment s) t))

/-- R33: with no tick event and no `rst`, however many cycles pass, a segment holds with `cmd_ready` = 0. -/
def Obligations.SegmentHoldsWithoutTicks : Prop :=
  ∀ (s : State) (xs : List Inputs), s.seg ≠ .idle → NoReset xs → NoTick xs →
    (∃ t, core.run xs.length (s.driven xs) = .next t ∧ SameRegisters s t) ∧
    (∀ k < xs.length, ∃ u, core.run k (s.driven xs) = .next u ∧ SameRegisters s u ∧ cmdReady u = false)

/-- R8: no step and no operation changes a parameter. -/
def Obligations.ParametersNeverChange : Prop :=
  (∀ s t : State, step s = .next t → t.cfg = s.cfg) ∧
  (∀ (i : Instr) (s t : State), exec i s = .next t → t.cfg = s.cfg)

/-- The model's own choice (log 4): a word put on the port by withFetchWord is what the very next step runs; in IDLE no
register is changed to do it. -/
def Obligations.OfferedWordRunsNext : Prop :=
  ∀ (s : State) (w : Nat), w < 2 ^ 27 →
    (∃ i, decodeTableWord 32 w = some i ∧
      step (s.withFetchWord 32 w) = exec i { madeReady s with inputs := s.inputs, cycle := s.cycle + 1 }) ∧
    (s.seg = .idle → madeReady s = s)

/-! ### What each operation starts -/

/-- R121: DISABLE, with every word that encodes it, turns the carrier off and changes nothing else. -/
def Obligations.DisableTurnsCarrierOff : Prop :=
  encode .disable = 0x0000000#27 ∧ (∀ w : CmdWord, opField w = 0#3 → decodeCmd w = .disable) ∧
  (∀ s : State, exec .disable s = .next { s with ce := false }) ∧
  (∀ s : State, s.ce = false → exec .disable s = .next s) ∧
  (∀ s t : State, exec .enable s = .next t → ∃ u, exec .disable t = .next u ∧ u.ce = false)

/-- ENABLE (R120) turns the carrier on and changes nothing else; with the carrier on it changes nothing. -/
def Obligations.EnableTurnsCarrierOn : Prop :=
  encode .enable = 0x1000000#27 ∧ (∀ w : CmdWord, opField w = 1#3 → decodeCmd w = .enable) ∧
  (∀ s : State, exec .enable s = .next { s with ce := true }) ∧
  (∀ s : State, s.ce = true → exec .enable s = .next s)

/-- WAIT N (R105): a counted segment of N ticks that leaves CE, F, I, DLY and BTN; WAIT 0 changes nothing. -/
def Obligations.WaitStartsItsCount : Prop :=
  ∀ (s : State) (n : Ticks),
    encode (.wait n) = 0x2000000#27 ||| n.setWidth 27 ∧
    (n = 0#24 → exec (.wait n) s = .next s) ∧
    (n ≠ 0#24 → exec (.wait n) s = .next { s with seg := .wait, cnt := n })

/-- MARK D (R130): the carrier on for a counted segment of D ticks; MARK 0 leaves the carrier off and starts nothing.
F, I, DLY and BTN are not written. -/
def Obligations.MarkStartsItsPulse : Prop :=
  ∀ (s : State) (d : Duration),
    encode (.mark d) = 0x4000000#27 ||| d.setWidth 27 ∧
    (d = 0#8 → exec (.mark d) s = .next { s with ce := false }) ∧
    (d ≠ 0#8 → exec (.mark d) s = .next { s with ce := true, seg := .mark, cnt := d.setWidth 24 })

/-- GAP D (R131): the carrier off, whatever it was, for a counted segment of D ticks; GAP 0 starts none.
F, I, DLY and BTN are not written. -/
def Obligations.GapStartsItsInterval : Prop :=
  ∀ (s : State) (d : Duration),
    encode (.gap d) = 0x3000000#27 ||| d.setWidth 27 ∧
    (d = 0#8 → exec (.gap d) s = .next { s with ce := false }) ∧
    (d ≠ 0#8 → exec (.gap d) s = .next { s with ce := false, seg := .gap, cnt := d.setWidth 24 })

/-- R141: what startFrame writes, for TRANSMIT (delay bit 0) and for DISPATCH with a button (delay bit 1): the frame has
the address in F[23:0] and the payload in F[47:24]. BTN is left by TRANSMIT. -/
def Obligations.FrameStartsWithItsPayload : Prop :=
  (∀ (s : State) (x : Payload) (d : Bool),
    startFrame x d s =
      { s with
        f := x ++ s.cfg.addr, i := 0#6, dly := d, ce := true, seg := .preMark, cnt := s.cfg.tPreMark.setWidth 24 } ∧
    (startFrame x d s).f.extractLsb' 0 24 = s.cfg.addr ∧ (startFrame x d s).f.extractLsb' 24 24 = x) ∧
  (∀ (s : State) (x : Payload), exec (.transmit x) s = .next (startFrame x false s)) ∧
  (∀ (s : State) (l : Level) (b : Button), decodeLevel s.cfg.toParams l = some b →
    exec (.dispatch l) s = .next (startFrame (s.cfg.cmdTable.get b) true { s with btn := buttonId b }))

/-- DECODE L (R161) writes the code of the button state into BTN and nothing else. -/
def Obligations.DecodeWritesTheButton : Prop :=
  ∀ (s : State) (l : Level), exec (.decode l) s = .next { s with btn := buttonCode (decodeLevel s.cfg.toParams l) }

/-- DISPATCH L (R171, R170): BTN is written; a button's frame starts with the delay pending; with none the delay starts
and CE, F, I and DLY stay. -/
def Obligations.DispatchStartsFrameOrDelay : Prop :=
  ∀ (s : State) (l : Level),
    (∀ b : Button, decodeLevel s.cfg.toParams l = some b →
      exec (.dispatch l) s = .next
        { s with
          btn := buttonId b, f := s.cfg.cmdTable.get b ++ s.cfg.addr, i := 0#6, dly := true, ce := true,
          seg := .preMark, cnt := s.cfg.tPreMark.setWidth 24 }) ∧
    (decodeLevel s.cfg.toParams l = none →
      exec (.dispatch l) s = .next { s with btn := 0#4, seg := .delay, cnt := s.cfg.delayTicks })

/-! ### How each segment ends -/

/-- R106, R132, R133, R173: the ends of the segments that are no part of a frame. -/
def Obligations.StandaloneSegmentsEnd : Prop :=
  ∀ s : State, s.now.rst = false → s.now.tick = true → s.cnt = 1#24 →
    (s.seg = .wait → step s = .next { s.advance with seg := .idle, cnt := 0#24 }) ∧
    (s.seg = .mark → step s = .next { s.advance with seg := .idle, cnt := 0#24, ce := false }) ∧
    (s.seg = .gap → step s = .next { s.advance with seg := .idle, cnt := 0#24 }) ∧
    (s.seg = .delay → step s = .next { s.advance with seg := .idle, cnt := 0#24 })

/-- R142, R143, R144, R145, with the gap length of R147: each segment of a frame is followed by the next. -/
def Obligations.FrameSegmentsFollow : Prop :=
  (∀ (p : Params) (b : Bool), gapLen p b = if b = true then p.tOneGap else p.tZeroGap) ∧
  ∀ s : State, s.now.rst = false → s.now.tick = true → s.cnt = 1#24 →
    (s.seg = .preMark →
      step s = .next { s.advance with ce := false, seg := .preGap, cnt := s.cfg.tPreGap.setWidth 24 }) ∧
    (s.seg = .preGap →
      step s = .next { s.advance with ce := true, seg := .hdrMark, cnt := s.cfg.tBitMark.setWidth 24 }) ∧
    (s.seg = .hdrMark →
      step s = .next { s.advance with
        ce := false, seg := .bitGap, i := 0#6, cnt := (gapLen s.cfg.toParams (s.f.getLsbD 0)).setWidth 24 }) ∧
    (s.seg = .bitGap →
      step s = .next { s.advance with ce := true, seg := .bitMark, cnt := s.cfg.tBitMark.setWidth 24 })

/-- R146 and R172: after a bit-mark comes the next cell; after the 48th, the end of the frame, or the delay at the same
edge when DISPATCH started it. -/
def Obligations.BitMarkEnds : Prop :=
  ∀ s : State, s.now.rst = false → s.now.tick = true → s.cnt = 1#24 → s.seg = .bitMark →
    (s.i.toNat < 47 →
      step s = .next { s.advance with
        i := s.i + 1#6, ce := false, seg := .bitGap,
        cnt := (gapLen s.cfg.toParams (s.f.getLsbD (s.i.toNat + 1))).setWidth 24 }) ∧
    (47 ≤ s.i.toNat → s.dly = true →
      step s = .next { s.advance with dly := false, ce := false, seg := .delay, cnt := s.cfg.delayTicks }) ∧
    (47 ≤ s.i.toNat → s.dly = false →
      step s = .next { s.advance with ce := false, seg := .idle, cnt := 0#24 })

/-! ### The decoder -/

/-- R160, with R162, which the spec derives from it, and the codes of R83. TH is compared as an integer (log 10,
DEDUCED). For every configuration the decoder gives the first button whose threshold lies above the level, and
none above NONE_ABOVE or past all thresholds; one of the nine states always; from the level and the decoder's parameters
alone; and with the defaults the table of R160, the reachable fallback of 973 .. 999 with it. -/
def Obligations.DecoderFollowsTheThresholds : Prop :=
  (∀ (p : Params) (l : Level) (b : Button), decodeLevel p l = some b ↔
    l ≤ p.noneAbove ∧ (l.toNat : Int) < p.th b ∧
    ∀ b' : Button, (buttonId b').toNat < (buttonId b).toNat → p.th b' ≤ (l.toNat : Int)) ∧
  (∀ (p : Params) (l : Level), decodeLevel p l = none ↔ p.noneAbove < l ∨ ∀ b : Button, p.th b ≤ (l.toNat : Int)) ∧
  (buttonCode none = 0#4 ∧ buttonCode (some .exit) = 1#4 ∧ buttonCode (some .ok) = 2#4 ∧
    buttonCode (some .down) = 3#4 ∧ buttonCode (some .up) = 4#4 ∧ buttonCode (some .menu) = 5#4 ∧
    buttonCode (some .guide) = 6#4 ∧ buttonCode (some .power) = 7#4 ∧ buttonCode (some .input) = 8#4) ∧
  (∀ b : Button, buttonCode (some b) = buttonId b) ∧
  (∀ (p : Params) (l : Level), (buttonCode (decodeLevel p l)).toNat ≤ 8) ∧
  (∀ (p q : Params) (l : Level), p.noneAbove = q.noneAbove → (∀ b, p.th b = q.th b) → decodeLevel p l = decodeLevel q l) ∧
  (∀ (delay : Fin 16777215) (carrier clk : Nat) (l : Level), ∀ p, p = Config.defaultParams delay carrier clk →
    (l.toNat ≤ 64 → decodeLevel p l = some .exit) ∧
    (65 ≤ l.toNat → l.toNat ≤ 191 → decodeLevel p l = some .ok) ∧
    (192 ≤ l.toNat → l.toNat ≤ 320 → decodeLevel p l = some .down) ∧
    (321 ≤ l.toNat → l.toNat ≤ 452 → decodeLevel p l = some .up) ∧
    (453 ≤ l.toNat → l.toNat ≤ 585 → decodeLevel p l = some .menu) ∧
    (586 ≤ l.toNat → l.toNat ≤ 714 → decodeLevel p l = some .guide) ∧
    (715 ≤ l.toNat → l.toNat ≤ 843 → decodeLevel p l = some .power) ∧
    (844 ≤ l.toNat → l.toNat ≤ 972 → decodeLevel p l = some .input) ∧
    (973 ≤ l.toNat → l.toNat ≤ 999 → decodeLevel p l = none ∧ l ≤ p.noneAbove) ∧
    (1000 ≤ l.toNat → decodeLevel p l = none ∧ p.noneAbove < l))

/-- R163: the boundaries of the default thresholds. -/
def Obligations.DecoderBoundaries : Prop :=
  ∀ (delay : Fin 16777215) (carrier clk : Nat), ∀ p, p = Config.defaultParams delay carrier clk →
    decodeLevel p 64#10 = some .exit ∧ decodeLevel p 65#10 = some .ok ∧
    decodeLevel p 191#10 = some .ok ∧ decodeLevel p 192#10 = some .down ∧
    decodeLevel p 320#10 = some .down ∧ decodeLevel p 321#10 = some .up ∧
    decodeLevel p 452#10 = some .up ∧ decodeLevel p 453#10 = some .menu ∧
    decodeLevel p 585#10 = some .menu ∧ decodeLevel p 586#10 = some .guide ∧
    decodeLevel p 714#10 = some .guide ∧ decodeLevel p 715#10 = some .power ∧
    decodeLevel p 843#10 = some .power ∧ decodeLevel p 844#10 = some .input ∧
    decodeLevel p 972#10 = some .input ∧ decodeLevel p 973#10 = none ∧
    decodeLevel p 999#10 = none ∧ decodeLevel p 1000#10 = none ∧
    p.th .exit = 65 ∧ p.th .ok = 192 ∧ p.th .down = 321 ∧ p.th .up = 453 ∧
    p.th .menu = 586 ∧ p.th .guide = 715 ∧ p.th .power = 844 ∧ p.th .input = 973

/-! ### Rules about the whole machine -/

/-- The reset state meets the invariant of R36. -/
def Obligations.ResetStateMeetsInvariant : Prop := State.reset.Inv

/-- R36: the invariant is kept by every step, from any state that meets it, and so holds of every state reachable from a
reset state; and what R36 says of CE in WAIT and DELAY. -/
def Obligations.EveryStepKeepsInvariant : Prop :=
  (∀ s t : State, s.Inv → step s = .next t → t.Inv) ∧
  (∀ (s t : State) (k : Nat), AtReset s → core.run k s = .next t → t.Inv) ∧
  (∀ (s t : State) (n : Ticks), exec (.wait n) s = .next t → t.ce = s.ce) ∧
  (∀ (s t : State) (l : Level), decodeLevel s.cfg.toParams l = none → exec (.dispatch l) s = .next t → t.ce = s.ce) ∧
  (∀ s t : State, inFrame s.seg = true → step s = .next t → t.seg = .delay → t.ce = false)

/-- R125: CE changes only at the writes that R125 lists, and to the value it gives. -/
def Obligations.OnlyListedWritersChangeCarrier : Prop :=
  ∀ s t : State, step s = .next t → t.ce ≠ s.ce →
    (s.now.rst = true ∧ t.ce = false) ∨
    (s.now.rst = false ∧ s.seg = .idle ∧ s.now.cmdValid = true ∧
      ((decodeCmd s.now.cmd = .enable ∧ t.ce = true) ∨
       (decodeCmd s.now.cmd = .disable ∧ t.ce = false) ∨
       (∃ d, decodeCmd s.now.cmd = .mark d ∧ (t.ce = true ↔ d ≠ 0#8)) ∨
       (∃ d, decodeCmd s.now.cmd = .gap d ∧ t.ce = false) ∨
       (∃ x, decodeCmd s.now.cmd = .transmit x ∧ t.ce = true) ∨
       (∃ l b, decodeCmd s.now.cmd = .dispatch l ∧ decodeLevel s.cfg.toParams l = some b ∧ t.ce = true))) ∨
    (s.now.rst = false ∧ s.now.tick = true ∧ ¬ 1#24 < s.cnt ∧
      ((s.seg = .mark ∧ t.ce = false) ∨
       (inFrame s.seg = true ∧ (t.ce = true ↔ t.seg = .hdrMark ∨ t.seg = .bitMark))))

/-- F changes only where a frame starts, and I outside the header mark and the bit cells only where a frame starts
(the content of R35), `rst` apart. -/
def Obligations.FrameRegistersHold : Prop :=
  ∀ s t : State, s.now.rst = false → step s = .next t →
    (inFrame s.seg = true → t.f = s.f) ∧
    (t.f ≠ s.f → s.seg = .idle ∧ t.seg = .preMark ∧ t.i = 0#6) ∧
    (s.seg ≠ .hdrMark → s.seg ≠ .bitGap → s.seg ≠ .bitMark → t.i ≠ s.i →
      s.seg = .idle ∧ t.seg = .preMark ∧ t.i = 0#6)

/-- R176: what a DISPATCH does is the same from any two states of one configuration, in every register it writes; it
leaves the others; and BTN is never read: a step from a state with another BTN differs in BTN alone. -/
def Obligations.DispatchKeepsNoState : Prop :=
  (∀ (l : Level) (s s' t t' : State), s.cfg = s'.cfg →
    exec (.dispatch l) s = .next t → exec (.dispatch l) s' = .next t' →
    t.btn = t'.btn ∧ t.seg = t'.seg ∧ t.cnt = t'.cnt ∧
    ((t.seg = .preMark ∧ SameRegisters t t') ∨
     (t.seg = .delay ∧ t.ce = s.ce ∧ t.f = s.f ∧ t.i = s.i ∧ t.dly = s.dly))) ∧
  (∀ (s : State) (b : BitVec 4), ∃ t c, step s = .next t ∧ step { s with btn := b } = .next { t with btn := c })

/-- R111: CNT counts down by 1 to 1 and the segment ends instead of counting to 0; CNT = 0 only in IDLE. -/
def Obligations.CounterNeverWraps : Prop :=
  ∀ s t : State, s.Inv → s.now.rst = false → step s = .next t →
    (t.cnt = 0#24 ↔ t.seg = .idle) ∧
    (s.seg ≠ .idle →
      (s.now.tick = false ∧ t.cnt = s.cnt ∧ t.seg = s.seg) ∨
      (s.now.tick = true ∧ 2 ≤ s.cnt.toNat ∧ t.cnt.toNat + 1 = s.cnt.toNat ∧ t.seg = s.seg) ∨
      (s.now.tick = true ∧ s.cnt = 1#24 ∧ SameRegisters (endSegment s) t))

/-! ### Exactness -/

/-- R107: a segment with n ticks to count ends at the edge of the n-th tick event, whatever cycles the tick events fall
in; until then it is current with its CE; exactly n samples are taken, all of that value. -/
def Obligations.SegmentCountsExactly : Prop :=
  ∀ (s : State) (n : Nat) (xs : List Inputs), s.seg ≠ .idle → s.cnt.toNat = n → 1 ≤ n → EndsAtTick n xs →
    (∃ t, core.run xs.length (s.driven xs) = .next t ∧ SameRegisters (endSegment s) t) ∧
    samples xs.length (s.driven xs) = List.replicate n s.ce ∧
    (∀ k < xs.length, ∃ u, core.run k (s.driven xs) = .next u ∧ u.seg = s.seg ∧ u.ce = s.ce)

/-- R110: cycles in which no input is driven can be left out, in any run, without changing a register or a tick sample;
and while a segment counts, so can every cycle that is no tick event, whatever is offered in it (samples as in log 12). -/
def Obligations.TickSpacingChangesNothing : Prop :=
  (∀ (s : State) (xs ys : List Inputs), ys = xs.filter (fun x => x.rst || x.tick || x.cmdValid) →
    ∃ t u, core.run xs.length (s.driven xs) = .next t ∧ core.run ys.length (s.driven ys) = .next u ∧
      SameRegisters t u ∧ samples xs.length (s.driven xs) = samples ys.length (s.driven ys)) ∧
  (∀ (s : State) (xs ys : List Inputs), NoReset xs → ys = xs.filter (fun x => x.tick) →
    (∀ k < xs.length, ∀ v, core.run k (s.driven xs) = .next v → v.seg ≠ .idle) →
    ∃ t u, core.run xs.length (s.driven xs) = .next t ∧ core.run ys.length (s.driven ys) = .next u ∧
      SameRegisters t u ∧ samples xs.length (s.driven xs) = samples ys.length (s.driven ys))

/-- R134: MARK D gives exactly D samples 1 and GAP D exactly D samples 0, from the first tick event after the acceptance
cycle to the one at which the segment ends; a tick event in the acceptance cycle samples the CE before it (log 12). -/
def Obligations.MarkAndGapAreExact : Prop :=
  ∀ (s : State) (x : Inputs) (xs : List Inputs) (d : Duration) (level : Bool),
    s.seg = .idle → x.rst = false → x.cmdValid = true →
    decodeCmd x.cmd = (if level = true then .mark d else .gap d) → d ≠ 0#8 → EndsAtTick d.toNat xs →
    (∃ t, core.run (xs.length + 1) (s.driven (x :: xs)) = .next t ∧ t.seg = .idle ∧ t.cnt = 0#24 ∧ t.ce = false ∧
      t.f = s.f ∧ t.i = s.i ∧ t.dly = s.dly ∧ t.btn = s.btn) ∧
    samples (xs.length + 1) (s.driven (x :: xs)) =
      (if x.tick = true then [s.ce] else []) ++ List.replicate d.toNat level

/-- R149: the tick-sample stream of one frame, for either way it is started and any spacing of the tick events, is the
preamble, the header mark and the 48 cells in order; at its end the frame is over, with the delay current if it was
started with the delay bit; until then `tx_active` is 1 and `cmd_ready` is 0. -/
def Obligations.FrameWaveformIsExact : Prop :=
  ∀ (s : State) (payload : Payload) (d : Bool) (p : Params) (f : Frame) (xs : List Inputs),
    p = s.cfg.toParams → f = payload ++ p.addr → EndsAtTick (frameTicks p f) xs →
    samples xs.length ((startFrame payload d s).driven xs) =
      List.replicate p.tPreMark.toNat true ++ List.replicate p.tPreGap.toNat false ++
      List.replicate p.tBitMark.toNat true ++
      (List.range 48).flatMap (fun k =>
        List.replicate (gapLen p (f.getLsbD k)).toNat false ++ List.replicate p.tBitMark.toNat true) ∧
    (∃ t, core.run xs.length ((startFrame payload d s).driven xs) = .next t ∧
      t.ce = false ∧ t.f = f ∧ t.i = 47#6 ∧ t.dly = false ∧ t.btn = s.btn ∧
      (d = true → t.seg = .delay ∧ t.cnt = p.delayTicks) ∧ (d = false → t.seg = .idle ∧ t.cnt = 0#24)) ∧
    (∀ k < xs.length, ∃ u, core.run k ((startFrame payload d s).driven xs) = .next u ∧
      txActive u = true ∧ cmdReady u = false)

/-- R150: 50 marks and 49 gaps in every frame. -/
def Obligations.FrameHasFiftyMarks : Prop :=
  ∀ (p : Params) (f : Frame),
    (framePulses p f).countP (fun r => r.1) = 50 ∧ (framePulses p f).countP (fun r => !r.1) = 49

/-- R151: the duration of a frame is the formula of the rule, with its values for the default parameters. -/
def Obligations.FrameDurationFormula : Prop :=
  (∀ (p : Params) (f : Frame), ticksOf (framePulses p f) =
    p.tPreMark.toNat + p.tPreGap.toNat + p.tBitMark.toNat + 48 * p.tBitMark.toNat +
      popcount f * p.tOneGap.toNat + (48 - popcount f) * p.tZeroGap.toNat) ∧
  (∀ (p : Params) (f : Frame), frameTicks p f = ticksOf (framePulses p f)) ∧
  (∀ (p : Params) (x : Payload), popcount (assembleFrame p x) = popcount p.addr + popcount x) ∧
  (∀ (delay : Fin 16777215) (carrier clk : Nat), ∀ p, p = Config.defaultParams delay carrier clk →
    (∀ f : Frame, frameTicks p f = 1801 + 35 * popcount f ∧ frameTicks p f ≤ 3481) ∧
    (∀ x : Payload, frameTicks p (assembleFrame p x) = 1906 + 35 * popcount x))

/-- R175's figures for the default table: the frame parts of the eight buttons. -/
def Obligations.DispatchFrameParts : Prop :=
  ∀ (delay : Fin 16777215) (carrier clk : Nat), ∀ p, p = Config.defaultParams delay carrier clk →
    frameTicks p (assembleFrame p (romRead p .exit)) = 2151 ∧ frameTicks p (assembleFrame p (romRead p .ok)) = 2151 ∧
    frameTicks p (assembleFrame p (romRead p .down)) = 2221 ∧ frameTicks p (assembleFrame p (romRead p .up)) = 2151 ∧
    frameTicks p (assembleFrame p (romRead p .menu)) = 2151 ∧ frameTicks p (assembleFrame p (romRead p .guide)) = 2221 ∧
    frameTicks p (assembleFrame p (romRead p .power)) = 2291 ∧ frameTicks p (assembleFrame p (romRead p .input)) = 2081 ∧
    p.delayTicks.toNat = delay.val + 1

/-- R233, with the sample streams of R105, R134, R149, R171 and R177: from an acceptance cycle with `rst` = 0 throughout,
an operation of no ticks completes in that cycle, and one of n ticks at the edge of the n-th tick event after it, however
the tick events are spaced and whatever is offered meanwhile; before that `cmd_ready` is 0, after it 1; its tick samples
are exactly its pulses (the sample of the acceptance cycle as in log 12). -/
def Obligations.OperationsTakeTheirTicks : Prop :=
  ∀ (s : State) (x : Inputs) (xs : List Inputs) (i : Instr) (p : Params),
    s.seg = .idle → x.rst = false → x.cmdValid = true → decodeCmd x.cmd = i → p = s.cfg.toParams →
    (operationTicks p i = 0 → ∃ t, step (s.driven (x :: xs)) = .next t ∧ t.seg = .idle ∧
      (t.now.rst = false → cmdReady t = true)) ∧
    (operationTicks p i ≠ 0 → EndsAtTick (operationTicks p i) xs →
      (∃ t, core.run (xs.length + 1) (s.driven (x :: xs)) = .next t ∧ t.seg = .idle ∧ t.inputs = s.inputs ∧
        (t.now.rst = false → cmdReady t = true)) ∧
      (∀ k, 1 ≤ k → k ≤ xs.length → ∃ u, core.run k (s.driven (x :: xs)) = .next u ∧ cmdReady u = false) ∧
      samples (xs.length + 1) (s.driven (x :: xs)) =
        (if x.tick = true then [s.ce] else []) ++ samplesOf (operationPulses p s.ce i))

/-- R229: a mark built of ENABLE, WAIT n and DISABLE, each accepted in the first cycle it can be, is n samples long and
one longer for each tick event in the acceptance cycles of WAIT and DISABLE (samples as in log 12). -/
def Obligations.ThreeCommandMarkIsLonger : Prop :=
  ∀ (s : State) (e w z : Inputs) (xs : List Inputs) (n : Ticks),
    s.seg = .idle → NoReset [e, w, z] → e.cmdValid = true → w.cmdValid = true → z.cmdValid = true →
    decodeCmd e.cmd = .enable → decodeCmd w.cmd = .wait n → decodeCmd z.cmd = .disable →
    n ≠ 0#24 → EndsAtTick n.toNat xs →
    (∃ t, core.run (xs.length + 3) (s.driven (e :: w :: xs ++ [z])) = .next t ∧ t.seg = .idle ∧ t.ce = false) ∧
    samples (xs.length + 3) (s.driven (e :: w :: xs ++ [z])) =
      (if e.tick = true then [s.ce] else []) ++
        List.replicate ((if w.tick = true then 1 else 0) + n.toNat + (if z.tick = true then 1 else 0)) true
end

