-- ==== Sys2Proof/Laws/State.lean ====
section
/-! SUPPORT. One lemma per field per update of the state, so that no proof unfolds a record update. -/

namespace Sys2Proof.Machine

/-! ### State.advance -/

@[simp] theorem State.advance_ce (s : State) : s.advance.ce = s.ce := rfl
@[simp] theorem State.advance_seg (s : State) : s.advance.seg = s.seg := rfl
@[simp] theorem State.advance_cnt (s : State) : s.advance.cnt = s.cnt := rfl
@[simp] theorem State.advance_f (s : State) : s.advance.f = s.f := rfl
@[simp] theorem State.advance_i (s : State) : s.advance.i = s.i := rfl
@[simp] theorem State.advance_dly (s : State) : s.advance.dly = s.dly := rfl
@[simp] theorem State.advance_btn (s : State) : s.advance.btn = s.btn := rfl
@[simp] theorem State.advance_cfg (s : State) : s.advance.cfg = s.cfg := rfl
@[simp] theorem State.advance_inputs (s : State) : s.advance.inputs = s.inputs.tail := rfl
@[simp] theorem State.advance_cycle (s : State) : s.advance.cycle = s.cycle + 1 := rfl

/-! ### State.driven -/

@[simp] theorem State.driven_ce (xs : List Inputs) (s : State) : (s.driven xs).ce = s.ce := rfl
@[simp] theorem State.driven_seg (xs : List Inputs) (s : State) : (s.driven xs).seg = s.seg := rfl
@[simp] theorem State.driven_cnt (xs : List Inputs) (s : State) : (s.driven xs).cnt = s.cnt := rfl
@[simp] theorem State.driven_f (xs : List Inputs) (s : State) : (s.driven xs).f = s.f := rfl
@[simp] theorem State.driven_i (xs : List Inputs) (s : State) : (s.driven xs).i = s.i := rfl
@[simp] theorem State.driven_dly (xs : List Inputs) (s : State) : (s.driven xs).dly = s.dly := rfl
@[simp] theorem State.driven_btn (xs : List Inputs) (s : State) : (s.driven xs).btn = s.btn := rfl
@[simp] theorem State.driven_cfg (xs : List Inputs) (s : State) : (s.driven xs).cfg = s.cfg := rfl
@[simp] theorem State.driven_inputs (xs : List Inputs) (s : State) : (s.driven xs).inputs = xs ++ s.inputs := rfl
@[simp] theorem State.driven_cycle (xs : List Inputs) (s : State) : (s.driven xs).cycle = s.cycle := rfl

/-! ### setCarrier -/

@[simp] theorem setCarrier_ce (b : Bool) (s : State) : (setCarrier b s).ce = b := rfl
@[simp] theorem setCarrier_seg (b : Bool) (s : State) : (setCarrier b s).seg = s.seg := rfl
@[simp] theorem setCarrier_cnt (b : Bool) (s : State) : (setCarrier b s).cnt = s.cnt := rfl
@[simp] theorem setCarrier_f (b : Bool) (s : State) : (setCarrier b s).f = s.f := rfl
@[simp] theorem setCarrier_i (b : Bool) (s : State) : (setCarrier b s).i = s.i := rfl
@[simp] theorem setCarrier_dly (b : Bool) (s : State) : (setCarrier b s).dly = s.dly := rfl
@[simp] theorem setCarrier_btn (b : Bool) (s : State) : (setCarrier b s).btn = s.btn := rfl
@[simp] theorem setCarrier_cfg (b : Bool) (s : State) : (setCarrier b s).cfg = s.cfg := rfl
@[simp] theorem setCarrier_inputs (b : Bool) (s : State) : (setCarrier b s).inputs = s.inputs := rfl
@[simp] theorem setCarrier_cycle (b : Bool) (s : State) : (setCarrier b s).cycle = s.cycle := rfl

/-! ### setButton -/

@[simp] theorem setButton_ce (b : ButtonState) (s : State) : (setButton b s).ce = s.ce := rfl
@[simp] theorem setButton_seg (b : ButtonState) (s : State) : (setButton b s).seg = s.seg := rfl
@[simp] theorem setButton_cnt (b : ButtonState) (s : State) : (setButton b s).cnt = s.cnt := rfl
@[simp] theorem setButton_f (b : ButtonState) (s : State) : (setButton b s).f = s.f := rfl
@[simp] theorem setButton_i (b : ButtonState) (s : State) : (setButton b s).i = s.i := rfl
@[simp] theorem setButton_dly (b : ButtonState) (s : State) : (setButton b s).dly = s.dly := rfl
@[simp] theorem setButton_btn (b : ButtonState) (s : State) : (setButton b s).btn = buttonCode b := rfl
@[simp] theorem setButton_cfg (b : ButtonState) (s : State) : (setButton b s).cfg = s.cfg := rfl
@[simp] theorem setButton_inputs (b : ButtonState) (s : State) : (setButton b s).inputs = s.inputs := rfl
@[simp] theorem setButton_cycle (b : ButtonState) (s : State) : (setButton b s).cycle = s.cycle := rfl

/-! ### enterSegment -/

@[simp] theorem enterSegment_ce (g : Seg) (n : Ticks) (s : State) : (enterSegment g n s).ce = s.ce := rfl
@[simp] theorem enterSegment_seg (g : Seg) (n : Ticks) (s : State) : (enterSegment g n s).seg = g := rfl
@[simp] theorem enterSegment_cnt (g : Seg) (n : Ticks) (s : State) : (enterSegment g n s).cnt = n := rfl
@[simp] theorem enterSegment_f (g : Seg) (n : Ticks) (s : State) : (enterSegment g n s).f = s.f := rfl
@[simp] theorem enterSegment_i (g : Seg) (n : Ticks) (s : State) : (enterSegment g n s).i = s.i := rfl
@[simp] theorem enterSegment_dly (g : Seg) (n : Ticks) (s : State) : (enterSegment g n s).dly = s.dly := rfl
@[simp] theorem enterSegment_btn (g : Seg) (n : Ticks) (s : State) : (enterSegment g n s).btn = s.btn := rfl
@[simp] theorem enterSegment_cfg (g : Seg) (n : Ticks) (s : State) : (enterSegment g n s).cfg = s.cfg := rfl
@[simp] theorem enterSegment_inputs (g : Seg) (n : Ticks) (s : State) : (enterSegment g n s).inputs = s.inputs := rfl
@[simp] theorem enterSegment_cycle (g : Seg) (n : Ticks) (s : State) : (enterSegment g n s).cycle = s.cycle := rfl

/-! ### goIdle -/

@[simp] theorem goIdle_ce (s : State) : (goIdle s).ce = s.ce := rfl
@[simp] theorem goIdle_seg (s : State) : (goIdle s).seg = .idle := rfl
@[simp] theorem goIdle_cnt (s : State) : (goIdle s).cnt = 0#24 := rfl
@[simp] theorem goIdle_f (s : State) : (goIdle s).f = s.f := rfl
@[simp] theorem goIdle_i (s : State) : (goIdle s).i = s.i := rfl
@[simp] theorem goIdle_dly (s : State) : (goIdle s).dly = s.dly := rfl
@[simp] theorem goIdle_btn (s : State) : (goIdle s).btn = s.btn := rfl
@[simp] theorem goIdle_cfg (s : State) : (goIdle s).cfg = s.cfg := rfl
@[simp] theorem goIdle_inputs (s : State) : (goIdle s).inputs = s.inputs := rfl
@[simp] theorem goIdle_cycle (s : State) : (goIdle s).cycle = s.cycle := rfl

/-! ### resetRegisters -/

@[simp] theorem resetRegisters_ce (s : State) : (resetRegisters s).ce = false := rfl
@[simp] theorem resetRegisters_seg (s : State) : (resetRegisters s).seg = .idle := rfl
@[simp] theorem resetRegisters_cnt (s : State) : (resetRegisters s).cnt = 0#24 := rfl
@[simp] theorem resetRegisters_f (s : State) : (resetRegisters s).f = 0#48 := rfl
@[simp] theorem resetRegisters_i (s : State) : (resetRegisters s).i = 0#6 := rfl
@[simp] theorem resetRegisters_dly (s : State) : (resetRegisters s).dly = false := rfl
@[simp] theorem resetRegisters_btn (s : State) : (resetRegisters s).btn = 0#4 := rfl
@[simp] theorem resetRegisters_cfg (s : State) : (resetRegisters s).cfg = s.cfg := rfl
@[simp] theorem resetRegisters_inputs (s : State) : (resetRegisters s).inputs = s.inputs := rfl
@[simp] theorem resetRegisters_cycle (s : State) : (resetRegisters s).cycle = s.cycle := rfl

/-! ### startFrame -/

@[simp] theorem startFrame_ce (p : Payload) (d : Bool) (s : State) : (startFrame p d s).ce = true := rfl
@[simp] theorem startFrame_seg (p : Payload) (d : Bool) (s : State) : (startFrame p d s).seg = .preMark := rfl
@[simp] theorem startFrame_cnt (p : Payload) (d : Bool) (s : State) : (startFrame p d s).cnt = ticksOfDuration s.cfg.tPreMark := rfl
@[simp] theorem startFrame_f (p : Payload) (d : Bool) (s : State) : (startFrame p d s).f = assembleFrame s.cfg.toParams p := rfl
@[simp] theorem startFrame_i (p : Payload) (d : Bool) (s : State) : (startFrame p d s).i = 0#6 := rfl
@[simp] theorem startFrame_dly (p : Payload) (d : Bool) (s : State) : (startFrame p d s).dly = d := rfl
@[simp] theorem startFrame_btn (p : Payload) (d : Bool) (s : State) : (startFrame p d s).btn = s.btn := rfl
@[simp] theorem startFrame_cfg (p : Payload) (d : Bool) (s : State) : (startFrame p d s).cfg = s.cfg := rfl
@[simp] theorem startFrame_inputs (p : Payload) (d : Bool) (s : State) : (startFrame p d s).inputs = s.inputs := rfl
@[simp] theorem startFrame_cycle (p : Payload) (d : Bool) (s : State) : (startFrame p d s).cycle = s.cycle := rfl

/-! ### enterDelay -/

@[simp] theorem enterDelay_ce (s : State) : (enterDelay s).ce = s.ce := rfl
@[simp] theorem enterDelay_seg (s : State) : (enterDelay s).seg = .delay := rfl
@[simp] theorem enterDelay_cnt (s : State) : (enterDelay s).cnt = s.cfg.delayTicks := rfl
@[simp] theorem enterDelay_f (s : State) : (enterDelay s).f = s.f := rfl
@[simp] theorem enterDelay_i (s : State) : (enterDelay s).i = s.i := rfl
@[simp] theorem enterDelay_dly (s : State) : (enterDelay s).dly = s.dly := rfl
@[simp] theorem enterDelay_btn (s : State) : (enterDelay s).btn = s.btn := rfl
@[simp] theorem enterDelay_cfg (s : State) : (enterDelay s).cfg = s.cfg := rfl
@[simp] theorem enterDelay_inputs (s : State) : (enterDelay s).inputs = s.inputs := rfl
@[simp] theorem enterDelay_cycle (s : State) : (enterDelay s).cycle = s.cycle := rfl

/-! ### startBitCell -/

@[simp] theorem startBitCell_ce (k : BitVec 6) (s : State) : (startBitCell k s).ce = false := rfl
@[simp] theorem startBitCell_seg (k : BitVec 6) (s : State) : (startBitCell k s).seg = .bitGap := rfl
@[simp] theorem startBitCell_cnt (k : BitVec 6) (s : State) : (startBitCell k s).cnt = ticksOfDuration (gapLen s.cfg.toParams (s.f.getLsbD k.toNat)) := rfl
@[simp] theorem startBitCell_f (k : BitVec 6) (s : State) : (startBitCell k s).f = s.f := rfl
@[simp] theorem startBitCell_i (k : BitVec 6) (s : State) : (startBitCell k s).i = k := rfl
@[simp] theorem startBitCell_dly (k : BitVec 6) (s : State) : (startBitCell k s).dly = s.dly := rfl
@[simp] theorem startBitCell_btn (k : BitVec 6) (s : State) : (startBitCell k s).btn = s.btn := rfl
@[simp] theorem startBitCell_cfg (k : BitVec 6) (s : State) : (startBitCell k s).cfg = s.cfg := rfl
@[simp] theorem startBitCell_inputs (k : BitVec 6) (s : State) : (startBitCell k s).inputs = s.inputs := rfl
@[simp] theorem startBitCell_cycle (k : BitVec 6) (s : State) : (startBitCell k s).cycle = s.cycle := rfl

/-! ### countDown -/

@[simp] theorem countDown_ce (s : State) : (countDown s).ce = s.ce := rfl
@[simp] theorem countDown_seg (s : State) : (countDown s).seg = s.seg := rfl
@[simp] theorem countDown_cnt (s : State) : (countDown s).cnt = s.cnt - 1#24 := rfl
@[simp] theorem countDown_f (s : State) : (countDown s).f = s.f := rfl
@[simp] theorem countDown_i (s : State) : (countDown s).i = s.i := rfl
@[simp] theorem countDown_dly (s : State) : (countDown s).dly = s.dly := rfl
@[simp] theorem countDown_btn (s : State) : (countDown s).btn = s.btn := rfl
@[simp] theorem countDown_cfg (s : State) : (countDown s).cfg = s.cfg := rfl
@[simp] theorem countDown_inputs (s : State) : (countDown s).inputs = s.inputs := rfl
@[simp] theorem countDown_cycle (s : State) : (countDown s).cycle = s.cycle := rfl

end Sys2Proof.Machine
end

