-- ==== Sys2Proof/Laws/Config.lean ====
section
/-! SUPPORT. What the range check of a configuration (00_scope.md R7) says of each parameter. -/

namespace Sys2Proof

theorem Config.ranges (c : Config) :
    c.tPreMark ≠ 0#8 ∧ c.tPreGap ≠ 0#8 ∧ c.tBitMark ≠ 0#8 ∧ c.tOneGap ≠ 0#8 ∧ c.tZeroGap ≠ 0#8 ∧
    (∀ b, 0 ≤ c.th b ∧ c.th b ≤ 1024) ∧ c.delayTicks ≠ 0#24 ∧ c.carrierHz ≠ 0 ∧ c.clkHz ≠ 0 := by
  have h := c.ok
  simp only [Params.inRange, Params.thInRange, Bool.and_eq_true, bne_iff_ne, decide_eq_true_eq] at h
  obtain ⟨⟨⟨⟨⟨⟨⟨⟨⟨⟨⟨⟨⟨⟨⟨h1, h2⟩, h3⟩, h4⟩, h5⟩, e⟩, o⟩, d⟩, u⟩, m⟩, g⟩, p⟩, i⟩, hd⟩, hc⟩, hk⟩ := h
  refine ⟨h1, h2, h3, h4, h5, fun b => ?_, hd, hc, hk⟩
  cases b <;> assumption

theorem Config.tPreMark_ne_zero (c : Config) : c.tPreMark ≠ 0#8 := c.ranges.1
theorem Config.tPreGap_ne_zero (c : Config) : c.tPreGap ≠ 0#8 := c.ranges.2.1
theorem Config.tBitMark_ne_zero (c : Config) : c.tBitMark ≠ 0#8 := c.ranges.2.2.1
theorem Config.tOneGap_ne_zero (c : Config) : c.tOneGap ≠ 0#8 := c.ranges.2.2.2.1
theorem Config.tZeroGap_ne_zero (c : Config) : c.tZeroGap ≠ 0#8 := c.ranges.2.2.2.2.1
theorem Config.th_range (c : Config) (b : Button) : 0 ≤ c.th b ∧ c.th b ≤ 1024 := c.ranges.2.2.2.2.2.1 b
theorem Config.delayTicks_ne_zero (c : Config) : c.delayTicks ≠ 0#24 := c.ranges.2.2.2.2.2.2.1

end Sys2Proof
end

