-- ==== Sys2Proof/Laws/Encoding.lean ====
section
/-! SUPPORT. The bits of an encoded word and of its fields (30_encoding.md R70, R72). -/

namespace Sys2Proof.Laws

/-- A bit of an encoded word is a bit of the operand or of OP. -/
theorem getLsbD_encode (i : Instr) (k : Nat) :
    (encode i).getLsbD k = if k < 24 then (argument i).getLsbD k else (opcode i).getLsbD (k - 24) :=
  BitVec.getLsbD_append

/-- The OP field of an encoded word. -/
theorem opField_encode (i : Instr) : opField (encode i) = opcode i := by
  apply BitVec.eq_of_getLsbD_eq
  intro k hk
  simp [opField, getLsbD_encode, hk]

/-- The ARG field of an encoded word. -/
theorem argField_encode (i : Instr) : argField (encode i) = argument i := by
  apply BitVec.eq_of_getLsbD_eq
  intro k hk
  simp [argField, getLsbD_encode, hk]

/-- A word is its two fields. -/
theorem word_fields (w : CmdWord) (k : Nat) :
    w.getLsbD k = if k < 24 then (argField w).getLsbD k else (opField w).getLsbD (k - 24) := by
  by_cases hk : k < 24
  · simp [argField, hk]
  · by_cases h27 : k < 27
    · have h : k - 24 < 3 := by omega
      have e : 24 + (k - 24) = k := by omega
      simp [opField, hk, h, e]
    · have h : ¬ k - 24 < 3 := by omega
      rw [BitVec.getLsbD_of_ge _ _ (by omega)]
      simp [opField, hk, h]

end Sys2Proof.Laws
end

