-- ==== Sys2Proof/Laws/Ops.lean ====
section
/-! SUPPORT. One lemma for each shared operation that says everything it can do. -/

namespace Sys2Proof.Machine

@[simp] theorem ticksOfDuration_toNat (d : Duration) : (ticksOfDuration d).toNat = d.toNat := by
  simp only [ticksOfDuration, BitVec.toNat_setWidth]
  omega

@[simp] theorem ticksOfDuration_eq_zero (d : Duration) : ticksOfDuration d = 0#24 ↔ d = 0#8 := by
  rw [← BitVec.toNat_inj, ← BitVec.toNat_inj, ticksOfDuration_toNat]
  rfl

theorem gapLen_ne_zero (c : Config) (b : Bool) : gapLen c.toParams b ≠ 0#8 := by
  cases b
  · exact c.tZeroGap_ne_zero
  · exact c.tOneGap_ne_zero

theorem buttonCode_le (b : ButtonState) : (buttonCode b).toNat ≤ 8 := by
  rcases b with _ | (_ | _ | _ | _ | _ | _ | _ | _) <;> decide

theorem segCode_le (g : Seg) : (segCode g).toNat ≤ 9 := by cases g <;> decide

/-- A bit of a frame is a bit of the device address or of the payload (R141). -/
theorem getLsbD_assembleFrame (p : Params) (x : Payload) (k : Nat) :
    (assembleFrame p x).getLsbD k = if k < 24 then p.addr.getLsbD k else x.getLsbD (k - 24) :=
  BitVec.getLsbD_append

/-- The low half of a frame is the device address, the high half the payload (R141). -/
theorem assembleFrame_fields (p : Params) (x : Payload) :
    (assembleFrame p x).extractLsb' 0 24 = p.addr ∧ (assembleFrame p x).extractLsb' 24 24 = x := by
  constructor <;> apply BitVec.eq_of_getLsbD_eq <;> intro k hk
  · simp only [assembleFrame, BitVec.getLsbD_extractLsb', BitVec.getLsbD_append]
    simp [hk]
  · simp only [assembleFrame, BitVec.getLsbD_extractLsb', BitVec.getLsbD_append]
    have h : ¬ 24 + k < 24 := by omega
    simp [hk, h]

/-- What DISPATCH does with a button state: a frame is started, or the delay. -/
theorem dispatchButton_cases (b : ButtonState) (s : State) :
    (∃ k, b = some k ∧ dispatchButton b s = startFrame (romRead s.cfg.toParams k) true s) ∨
    (b = none ∧ dispatchButton b s = enterDelay s) := by
  cases b with
  | none => exact .inr ⟨rfl, rfl⟩
  | some k => exact .inl ⟨k, rfl, rfl⟩

/-- What the end of a BIT_MARK does: the next cell, the delay, or the end of the frame (R146). -/
theorem endBitMark_cases (s : State) :
    (s.i < 47#6 ∧ endBitMark s = startBitCell (s.i + 1#6) s) ∨
    (¬ s.i < 47#6 ∧ s.dly = true ∧ endBitMark s = delayAfterFrame s) ∨
    (¬ s.i < 47#6 ∧ s.dly = false ∧ endBitMark s = setCarrier false (goIdle s)) := by
  unfold endBitMark
  by_cases hi : s.i < 47#6 <;> cases hd : s.dly <;> simp [hi]

/-- What one tick event in a segment does: the count goes down, or the segment ends (R102). -/
theorem countTick_cases (s : State) :
    (1#24 < s.cnt ∧ countTick s = countDown s) ∨ (¬ 1#24 < s.cnt ∧ countTick s = endSegment s) := by
  unfold countTick
  by_cases h : 1#24 < s.cnt <;> simp [h]

/-- The end of a segment leaves what it does not name: F, BTN, the configuration and the environment. -/
theorem endSegment_frame (s : State) :
    (endSegment s).f = s.f ∧ (endSegment s).btn = s.btn ∧ (endSegment s).cfg = s.cfg ∧
    (endSegment s).inputs = s.inputs ∧ (endSegment s).cycle = s.cycle := by
  unfold endSegment
  cases s.seg with
  | bitMark => rcases endBitMark_cases s with ⟨_, h⟩ | ⟨_, _, h⟩ | ⟨_, _, h⟩ <;> rw [h] <;> exact ⟨rfl, rfl, rfl, rfl, rfl⟩
  | idle | wait | mark | gap | preMark | preGap | hdrMark | bitGap | delay => exact ⟨rfl, rfl, rfl, rfl, rfl⟩

/-- A segment's successor rule does not read CNT. -/
theorem endSegment_countDown (s : State) (h : s.seg ≠ .idle) : endSegment (countDown s) = endSegment s := by
  unfold endSegment
  rw [countDown_seg]
  cases hs : s.seg with
  | idle => exact absurd hs h
  | bitMark =>
    show endBitMark (countDown s) = endBitMark s
    unfold endBitMark
    rw [countDown_i, countDown_dly]
    split
    · rfl
    · split <;> rfl
  | wait | mark | gap | preMark | preGap | hdrMark | bitGap | delay => rfl

end Sys2Proof.Machine
end

