-- ==== Sys2Proof/Laws/PerInstr.lean ====
section
/-! SUPPORT. Statements about every instruction as syntax, one lemma per constructor of `Instr`. -/

namespace Sys2Proof.Laws

/-- The OP field of an instruction's word is its row's opcode (30_encoding.md R72), and its operand is in range (R73). -/
def OpField.Statement (i : Instr) : Prop := opField (encode i) = opcode i ∧ i.wellFormed = true

theorem OpField.disable : OpField.Statement .disable := ⟨opField_encode _, rfl⟩
theorem OpField.enable : OpField.Statement .enable := ⟨opField_encode _, rfl⟩
theorem OpField.wait (n : Ticks) : OpField.Statement (.wait n) := ⟨opField_encode _, decide_eq_true n.isLt⟩
theorem OpField.gap (d : Duration) : OpField.Statement (.gap d) := ⟨opField_encode _, decide_eq_true d.isLt⟩
theorem OpField.mark (d : Duration) : OpField.Statement (.mark d) := ⟨opField_encode _, decide_eq_true d.isLt⟩
theorem OpField.transmit (p : Payload) : OpField.Statement (.transmit p) := ⟨opField_encode _, decide_eq_true p.isLt⟩
theorem OpField.decode (l : Level) : OpField.Statement (.decode l) := ⟨opField_encode _, decide_eq_true l.isLt⟩
theorem OpField.dispatch (l : Level) : OpField.Statement (.dispatch l) := ⟨opField_encode _, decide_eq_true l.isLt⟩

end Sys2Proof.Laws
end

