-- ==== Sys2Proof/Laws/Step.lean ====
section
/-! SUPPORT. The step as a plain function on states, and the run of a list of inputs as a fold of it: what a proof
about `step` or `core.run` works with. -/

namespace Sys2Proof.Machine

/-- The start action of an operation as a function on states. -/
def startState (i : Instr) (s : State) : State :=
  match i with
  | .disable    => setCarrier false s
  | .enable     => setCarrier true s
  | .wait n     => if n = 0#24 then s else enterSegment .wait n s
  | .gap d      => if d = 0#8 then setCarrier false s else setCarrier false (enterSegment .gap (ticksOfDuration d) s)
  | .mark d     => if d = 0#8 then setCarrier false s else setCarrier true (enterSegment .mark (ticksOfDuration d) s)
  | .transmit p => startFrame p false s
  | .decode l   => setButton (decodeLevel s.cfg.toParams l) s
  | .dispatch l => dispatchButton (decodeLevel s.cfg.toParams l) (setButton (decodeLevel s.cfg.toParams l) s)

theorem exec_eq_startState (i : Instr) (s : State) : exec i s = .next (startState i s) := by
  cases i with
  | wait n => by_cases h : n = 0#24 <;> simp [exec, execWait, startState, h]
  | gap d => by_cases h : d = 0#8 <;> simp [exec, execGap, startState, h]
  | mark d => by_cases h : d = 0#8 <;> simp [exec, execMark, startState, h]
  | disable | enable | transmit _ | decode _ | dispatch _ => rfl

/-- What one cycle with inputs `x` does to the registers (R102), as a function. -/
def cycleState (x : Inputs) (s : State) : State :=
  if x.rst then resetRegisters s
  else if s.seg = .idle then (if x.cmdValid then startState (decodeCmd x.cmd) s else s)
  else (if x.tick then countTick s else s)

/-- The step answers a next state in every state, and that state is `cycleState` after the cycle's inputs are gone. -/
theorem step_eq_cycleState (s : State) : step s = .next (cycleState s.now s.advance) := by
  unfold step clockCycle cycleState idleCycle busyCycle
  simp only [State.advance_seg, exec_eq_startState]
  split
  · rfl
  · split <;> split <;> rfl

/-- One inversion lemma for the step: a next state comes from reset, from an accepted command, from a counted tick
event, from the end of a segment, or from a cycle in which no register changes. -/
theorem step_cases {s t : State} (h : step s = .next t) :
    (s.now.rst = true ∧ t = resetRegisters s.advance) ∨
    (s.now.rst = false ∧ s.seg = .idle ∧ s.now.cmdValid = true ∧ t = startState (decodeCmd s.now.cmd) s.advance) ∨
    (s.now.rst = false ∧ s.seg = .idle ∧ s.now.cmdValid = false ∧ t = s.advance) ∨
    (s.now.rst = false ∧ s.seg ≠ .idle ∧ s.now.tick = true ∧ t = countTick s.advance) ∨
    (s.now.rst = false ∧ s.seg ≠ .idle ∧ s.now.tick = false ∧ t = s.advance) := by
  rw [step_eq_cycleState] at h
  cases h
  unfold cycleState
  cases s.now.rst <;> cases s.now.cmdValid <;> cases s.now.tick <;> by_cases hs : s.seg = .idle <;> simp [hs]

/-- The state one cycle later, before anything happened in it: only the model's own cycle number moves. -/
def State.nextCycle (s : State) : State := { s with cycle := s.cycle + 1 }

@[simp] theorem State.nextCycle_ce (s : State) : s.nextCycle.ce = s.ce := rfl
@[simp] theorem State.nextCycle_seg (s : State) : s.nextCycle.seg = s.seg := rfl
@[simp] theorem State.nextCycle_cnt (s : State) : s.nextCycle.cnt = s.cnt := rfl
@[simp] theorem State.nextCycle_f (s : State) : s.nextCycle.f = s.f := rfl
@[simp] theorem State.nextCycle_i (s : State) : s.nextCycle.i = s.i := rfl
@[simp] theorem State.nextCycle_dly (s : State) : s.nextCycle.dly = s.dly := rfl
@[simp] theorem State.nextCycle_btn (s : State) : s.nextCycle.btn = s.btn := rfl
@[simp] theorem State.nextCycle_cfg (s : State) : s.nextCycle.cfg = s.cfg := rfl
@[simp] theorem State.nextCycle_inputs (s : State) : s.nextCycle.inputs = s.inputs := rfl
@[simp] theorem State.nextCycle_cycle (s : State) : s.nextCycle.cycle = s.cycle + 1 := rfl

/-- The same registers and configuration with another environment: `advance`, `driven` and `nextCycle` are of this
form, and no write of a register looks at the environment. -/
def State.withEnv (xs : List Inputs) (n : Nat) (s : State) : State := { s with inputs := xs, cycle := n }

@[simp] theorem State.withEnv_ce (xs : List Inputs) (n : Nat) (s : State) : (s.withEnv xs n).ce = s.ce := rfl
@[simp] theorem State.withEnv_seg (xs : List Inputs) (n : Nat) (s : State) : (s.withEnv xs n).seg = s.seg := rfl
@[simp] theorem State.withEnv_cnt (xs : List Inputs) (n : Nat) (s : State) : (s.withEnv xs n).cnt = s.cnt := rfl
@[simp] theorem State.withEnv_f (xs : List Inputs) (n : Nat) (s : State) : (s.withEnv xs n).f = s.f := rfl
@[simp] theorem State.withEnv_i (xs : List Inputs) (n : Nat) (s : State) : (s.withEnv xs n).i = s.i := rfl
@[simp] theorem State.withEnv_dly (xs : List Inputs) (n : Nat) (s : State) : (s.withEnv xs n).dly = s.dly := rfl
@[simp] theorem State.withEnv_btn (xs : List Inputs) (n : Nat) (s : State) : (s.withEnv xs n).btn = s.btn := rfl
@[simp] theorem State.withEnv_cfg (xs : List Inputs) (n : Nat) (s : State) : (s.withEnv xs n).cfg = s.cfg := rfl
@[simp] theorem State.withEnv_inputs (xs : List Inputs) (n : Nat) (s : State) : (s.withEnv xs n).inputs = xs := rfl
@[simp] theorem State.withEnv_cycle (xs : List Inputs) (n : Nat) (s : State) : (s.withEnv xs n).cycle = n := rfl

theorem advance_eq_withEnv (s : State) : s.advance = s.withEnv s.inputs.tail (s.cycle + 1) := rfl
theorem driven_eq_withEnv (xs : List Inputs) (s : State) : s.driven xs = s.withEnv (xs ++ s.inputs) s.cycle := rfl
theorem nextCycle_eq_withEnv (s : State) : s.nextCycle = s.withEnv s.inputs (s.cycle + 1) := rfl

theorem sameRegisters_withEnv (xs : List Inputs) (n : Nat) (s : State) : SameRegisters s (s.withEnv xs n) :=
  ⟨rfl, rfl, rfl, rfl, rfl, rfl, rfl⟩

/-- Two states of one configuration that agree on the registers differ in the environment alone. -/
theorem eq_withEnv_of_sameRegisters {s t : State} (h : SameRegisters s t) (hc : t.cfg = s.cfg) :
    t = s.withEnv t.inputs t.cycle := by
  obtain ⟨h1, h2, h3, h4, h5, h6, h7⟩ := h
  cases t
  simp only at h1 h2 h3 h4 h5 h6 h7 hc
  subst h1 h2 h3 h4 h5 h6 h7 hc
  rfl

theorem dispatchButton_withEnv (b : ButtonState) (xs : List Inputs) (n : Nat) (s : State) :
    dispatchButton b (s.withEnv xs n) = (dispatchButton b s).withEnv xs n := by
  cases b <;> rfl

theorem startState_withEnv (i : Instr) (xs : List Inputs) (n : Nat) (s : State) :
    startState i (s.withEnv xs n) = (startState i s).withEnv xs n := by
  cases i with
  | wait k => simp only [startState]; split <;> rfl
  | gap d => simp only [startState]; split <;> rfl
  | mark d => simp only [startState]; split <;> rfl
  | dispatch l => exact dispatchButton_withEnv (decodeLevel s.cfg.toParams l) xs n (setButton (decodeLevel s.cfg.toParams l) s)
  | disable | enable | transmit _ | decode _ => rfl

theorem endBitMark_withEnv (xs : List Inputs) (n : Nat) (s : State) :
    endBitMark (s.withEnv xs n) = (endBitMark s).withEnv xs n := by
  unfold endBitMark
  rw [State.withEnv_i, State.withEnv_dly]
  split
  · rfl
  · split <;> rfl

theorem endSegment_withEnv (xs : List Inputs) (n : Nat) (s : State) :
    endSegment (s.withEnv xs n) = (endSegment s).withEnv xs n := by
  unfold endSegment
  rw [State.withEnv_seg]
  cases s.seg with
  | bitMark => exact endBitMark_withEnv xs n s
  | idle | wait | mark | gap | preMark | preGap | hdrMark | bitGap | delay => rfl

theorem countTick_withEnv (xs : List Inputs) (n : Nat) (s : State) :
    countTick (s.withEnv xs n) = (countTick s).withEnv xs n := by
  unfold countTick
  rw [State.withEnv_cnt, endSegment_withEnv]
  split <;> rfl

theorem cycleState_withEnv (x : Inputs) (xs : List Inputs) (n : Nat) (s : State) :
    cycleState x (s.withEnv xs n) = (cycleState x s).withEnv xs n := by
  unfold cycleState
  rw [State.withEnv_seg, startState_withEnv, countTick_withEnv]
  split
  · rfl
  · split <;> split <;> rfl

/-- A cycle changes neither what the environment drives nor the cycle number. -/
theorem cycleState_env (x : Inputs) (s : State) :
    (cycleState x s).inputs = s.inputs ∧ (cycleState x s).cycle = s.cycle := by
  have h := cycleState_withEnv x s.inputs s.cycle s
  exact ⟨by rw [show s = s.withEnv s.inputs s.cycle from rfl, h]; rfl,
    by rw [show s = s.withEnv s.inputs s.cycle from rfl, h]; rfl⟩

/-- No operation's start action writes the configuration (R8). -/
theorem startState_cfg (i : Instr) (s : State) : (startState i s).cfg = s.cfg := by
  cases i with
  | wait n => simp only [startState]; split <;> rfl
  | gap d => simp only [startState]; split <;> rfl
  | mark d => simp only [startState]; split <;> rfl
  | dispatch l => simp only [startState, dispatchButton]; split <;> rfl
  | disable | enable | transmit _ | decode _ => rfl

theorem countTick_cfg (s : State) : (countTick s).cfg = s.cfg := by
  rcases countTick_cases s with ⟨_, h⟩ | ⟨_, h⟩
  · rw [h]; rfl
  · rw [h]; exact (endSegment_frame s).2.2.1

theorem cycleState_cfg (x : Inputs) (s : State) : (cycleState x s).cfg = s.cfg := by
  unfold cycleState
  split
  · rfl
  · split <;> split <;> first | rfl | exact startState_cfg _ _ | exact countTick_cfg _

/-- The first cycle of a driven run has the first inputs of the list. -/
@[simp] theorem now_driven_cons (x : Inputs) (xs : List Inputs) (s : State) : (s.driven (x :: xs)).now = x := rfl

/-- After the first cycle of a driven run, the rest of the list drives the state the cycle leaves. -/
theorem step_driven_cons (x : Inputs) (xs : List Inputs) (s : State) :
    step (s.driven (x :: xs)) = .next ((cycleState x s.nextCycle).driven xs) := by
  rw [step_eq_cycleState, now_driven_cons, driven_eq_withEnv xs, (cycleState_env x s.nextCycle).1,
    (cycleState_env x s.nextCycle).2, ← cycleState_withEnv]
  rfl

/-- The state after a list of cycles: a fold of `cycleState`. -/
def afterCycles (s : State) (xs : List Inputs) : State :=
  xs.foldl (fun u x => cycleState x u.nextCycle) s

/-- The tick samples of a list of cycles. -/
def samplesAlong : State → List Inputs → List Bool
  | _, []      => []
  | s, x :: xs => (if x.tick then [s.ce] else []) ++ samplesAlong (cycleState x s.nextCycle) xs

@[simp] theorem afterCycles_nil (s : State) : afterCycles s [] = s := rfl

@[simp] theorem afterCycles_cons (s : State) (x : Inputs) (xs : List Inputs) :
    afterCycles s (x :: xs) = afterCycles (cycleState x s.nextCycle) xs := rfl

theorem afterCycles_append (s : State) (xs ys : List Inputs) :
    afterCycles s (xs ++ ys) = afterCycles (afterCycles s xs) ys := by
  simp [afterCycles, List.foldl_append]

theorem samplesAlong_append (s : State) (xs ys : List Inputs) :
    samplesAlong s (xs ++ ys) = samplesAlong s xs ++ samplesAlong (afterCycles s xs) ys := by
  induction xs generalizing s with
  | nil => rfl
  | cons x xs ih => simp [samplesAlong, ih]

/-- A run moves the cycle number by its length and changes neither the configuration nor what is driven after it. -/
theorem afterCycles_env (s : State) (xs : List Inputs) :
    (afterCycles s xs).cfg = s.cfg ∧ (afterCycles s xs).inputs = s.inputs ∧
    (afterCycles s xs).cycle = s.cycle + xs.length := by
  induction xs generalizing s with
  | nil => exact ⟨rfl, rfl, rfl⟩
  | cons x xs ih =>
    obtain ⟨h1, h2, h3⟩ := ih (cycleState x s.nextCycle)
    obtain ⟨e1, e2⟩ := cycleState_env x s.nextCycle
    rw [afterCycles_cons, h1, h2, h3, e1, e2, cycleState_cfg, List.length_cons, State.nextCycle_cycle]
    exact ⟨rfl, rfl, by omega⟩

theorem driven_nil (s : State) : s.driven [] = s := rfl

/-- A run over the cycles of a list, with more driven after them, ends in the fold's state. -/
theorem run_driven_append (xs ys : List Inputs) (s : State) :
    core.run xs.length (s.driven (xs ++ ys)) = .next ((afterCycles s xs).driven ys) := by
  induction xs generalizing s with
  | nil => rfl
  | cons x xs ih =>
    have h : core.step (s.driven (x :: (xs ++ ys))) = .next ((cycleState x s.nextCycle).driven (xs ++ ys)) :=
      step_driven_cons x (xs ++ ys) s
    simp only [List.cons_append, List.length_cons, Host.Core.run, h, ih, afterCycles_cons]

theorem run_driven (xs : List Inputs) (s : State) :
    core.run xs.length (s.driven xs) = .next (afterCycles s xs) := by
  simpa [driven_nil] using run_driven_append xs [] s

/-- The run over the first `k` of the driven cycles. -/
theorem run_driven_take {k : Nat} (xs : List Inputs) (s : State) (hk : k ≤ xs.length) :
    core.run k (s.driven xs) = .next ((afterCycles s (xs.take k)).driven (xs.drop k)) := by
  have h := run_driven_append (xs.take k) (xs.drop k) s
  rwa [List.take_append_drop, List.length_take_of_le hk] at h

/-- The tick samples of a driven run are those along the list. -/
theorem samples_driven (xs : List Inputs) (s : State) : samples xs.length (s.driven xs) = samplesAlong s xs := by
  induction xs generalizing s with
  | nil => rfl
  | cons x xs ih =>
    simp only [List.length_cons, samples, step_driven_cons, tickSample, now_driven_cons, State.driven_ce, samplesAlong, ih]
    rfl

end Sys2Proof.Machine
end

