-- ==== Sys2Proof/Tests/Slice0.lean ====
section
/-! SUPPORT. The model's own tests. Expected values are those of spec/95_test_vectors.md (named in the comments) or of the
rule cited; and for every statement with hypotheses a witness that meets them. -/

namespace Sys2Proof.Tests

open Sys2Proof Sys2Proof.Machine

/-! ### Helpers -/

/-- The reset state with DELAY_TICKS = 5, the value of every vector of 95_test_vectors.md. -/
def base : State := { State.reset with cfg := Config.default 4 0 0 }

/-- A cycle with a tick event and nothing else. -/
def tickOnly : Inputs := { quiet with tick := true }

/-- A cycle with `rst` = 1 and everything else driven too. -/
def resetAll : Inputs := { rst := true, tick := true, cmdValid := true, cmd := 0x1000000#27 }

/-- The state after one cycle; the state itself if the step stops. -/
def after (s : State) (x : Inputs) : State :=
  match step (s.driven [x]) with
  | .next t    => t
  | .fault _   => s
  | .refused _ => s

/-- A MARK with two ticks to go. -/
def inMark : State := { base with ce := true, seg := .mark, cnt := 2#24 }

/-- A frame in its last bit-mark with one tick to go, as at TX-14k. -/
def inLastMark : State :=
  { base with ce := true, seg := .bitMark, cnt := 1#24, f := 0xC94900802002#48, i := 47#6 }

/-! ### Well-formedness: an ill-formed line for each check, which the check refuses -/

theorem test_wait_out_of_range : AsmLine.wellFormed (.wait 16777216) = false := by decide
theorem test_gap_out_of_range : AsmLine.wellFormed (.gap 256) = false := by decide
theorem test_mark_out_of_range : AsmLine.wellFormed (.mark 256) = false := by decide
theorem test_transmit_out_of_range : AsmLine.wellFormed (.transmit 16777216) = false := by decide
theorem test_decode_out_of_range : AsmLine.wellFormed (.decode 1024) = false := by decide
theorem test_dispatch_out_of_range : AsmLine.wellFormed (.dispatch 1024) = false := by decide
theorem test_press_no_button : AsmLine.wellFormed (.press 0) = false ∧ AsmLine.wellFormed (.press 9) = false := by decide
theorem test_sendbtn_no_button : AsmLine.wellFormed (.sendbtn 0) = false ∧ AsmLine.wellFormed (.sendbtn 9) = false := by decide

/-! ### Decoding: words written out from R70 and R72, OP in bits 26..24 -/

theorem test_decode_disable : decodeCmd 0b000000000000000000000000000#27 = .disable := by decide
theorem test_decode_enable : decodeCmd 0b001000000000000000000000000#27 = .enable := by decide
theorem test_decode_wait : decodeCmd 0b010000000000000000000000011#27 = .wait 3#24 := by decide
theorem test_decode_gap : decodeCmd 0b011000000000000000000110011#27 = .gap 51#8 := by decide
theorem test_decode_mark : decodeCmd 0b100000000000000000000010001#27 = .mark 17#8 := by decide
theorem test_decode_transmit : decodeCmd 0b101110010010100100100000000#27 = .transmit 0xC94900#24 := by decide
theorem test_decode_decode : decodeCmd 0b110000000000000000001100100#27 = .decode 100#10 := by decide
theorem test_decode_dispatch : decodeCmd 0b111000000000000001111111111#27 = .dispatch 1023#10 := by decide
theorem test_decode_refuses_28_bits : decodeNat 0x8000000 = .error .widerThanPort := by decide
theorem test_table_word : decodeTableWord 32 0x5C94900 = some (.transmit 0xC94900#24) := by decide

/-! ### One step each, as the first after reset -/

theorem test_first_step_dispatch :
    step (base.withFetchWord 32 0x7000064) = exec (.dispatch 100#10) { base with cycle := 1 } := by rfl
theorem test_first_step_enable :
    step (State.reset.withFetchWord 32 0x1ABCDEF) = exec .enable { State.reset with cycle := 1 } := by rfl

/-- CG-01, CG-05. -/
theorem test_enable : (after base (offer 0x1ABCDEF#27)).ce = true := by decide
/-- CG-08. -/
theorem test_disable :
    (after { base with ce := true, btn := 2#4 } (offer 0x0FFFFFF#27)).ce = false ∧
    (after { base with ce := true, btn := 2#4 } (offer 0x0FFFFFF#27)).btn = 2#4 := by decide
/-- WT-05. -/
theorem test_wait_longest :
    (after base (offer 0x2FFFFFF#27)).seg = .wait ∧ (after base (offer 0x2FFFFFF#27)).cnt = 0xFFFFFF#24 := by decide
/-- WT-01. -/
theorem test_wait_zero : (after base (offer 0x2000000#27)).seg = .idle ∧ (after base (offer 0x2000000#27)).cnt = 0#24 := by decide
/-- PP-11. -/
theorem test_mark :
    (after base (offer 0x4000002#27)).seg = .mark ∧ (after base (offer 0x4000002#27)).cnt = 2#24 ∧
    (after base (offer 0x4000002#27)).ce = true := by decide
/-- PP-05. -/
theorem test_mark_unread_bits_zero :
    (after { base with ce := true } (offer 0x4000100#27)).seg = .idle ∧
    (after { base with ce := true } (offer 0x4000100#27)).ce = false := by decide
/-- PP-08, PP-10. -/
theorem test_gap :
    (after { base with ce := true } (offer 0x30001FF#27)).ce = false ∧ (after base (offer 0x30001FF#27)).cnt = 255#24 := by decide
/-- PP-09. -/
theorem test_gap_zero :
    (after { base with ce := true } (offer 0x3000000#27)).ce = false ∧
    (after { base with ce := true } (offer 0x3000000#27)).seg = .idle := by decide
/-- TX-14a. -/
theorem test_transmit :
    (after base (offer 0x5C94900#27)).f = 0xC94900802002#48 ∧ (after base (offer 0x5C94900#27)).cnt = 133#24 ∧
    (after base (offer 0x5C94900#27)).dly = false := by decide
/-- TX-14l. -/
theorem test_transmit_end : (after inLastMark tickOnly).seg = .idle ∧ (after inLastMark tickOnly).i = 47#6 := by decide
/-- DEC-16, DEC-17. -/
theorem test_decode_boundary :
    (after base (offer 0x60003CC#27)).btn = 8#4 ∧ (after { base with btn := 7#4 } (offer 0x60003CD#27)).btn = 0#4 := by decide
/-- DEC-22. -/
theorem test_decode_unread_bits : (after base (offer 0x6FFFC64#27)).btn = 2#4 := by decide
/-- DSP-08. -/
theorem test_dispatch :
    (after base (offer 0x7000064#27)).f = 0xC94900802002#48 ∧ (after base (offer 0x7000064#27)).dly = true ∧
    (after base (offer 0x7000064#27)).btn = 2#4 := by decide
/-- P4, cycle 1. -/
theorem test_dispatch_none :
    (after { base with ce := true } (offer 0x70003D9#27)).ce = true ∧
    (after { base with ce := true } (offer 0x70003D9#27)).cnt = 5#24 ∧
    (after { base with ce := true } (offer 0x70003D9#27)).seg = .delay := by decide
/-- DSP-09: the frame of a DISPATCH ends in the delay. -/
theorem test_frame_end_delay :
    (after { inLastMark with dly := true } tickOnly).seg = .delay ∧
    (after { inLastMark with dly := true } tickOnly).dly = false ∧
    (after { inLastMark with dly := true } tickOnly).ce = false := by decide
/-- TX-14j: bit 1 of the frame is 1, its gap is 51. -/
theorem test_next_cell :
    (after { inLastMark with i := 0#6 } tickOnly).cnt = 51#24 ∧ (after { inLastMark with i := 0#6 } tickOnly).i = 1#6 := by decide
/-- ST-02. -/
theorem test_reset_wins : (after inMark resetAll).seg = .idle ∧ (after inMark resetAll).ce = false := by decide
/-- R78's examples as text. -/
theorem test_assembly_text :
    assembleText base.cfg.toParams "MARK 17 ; mark\nGAP 51\nTRANSMIT 0xC94900".toList =
      some [0x4000011#27, 0x3000033#27, 0x5C94900#27] := by decide
theorem test_assembly_refuses : assembleText base.cfg.toParams "MARK 256".toList = none := by decide

/-! ### Witnesses: states and operands that meet the hypotheses of the statements -/

theorem noReset_replicate (n : Nat) : NoReset (List.replicate n tickOnly) := by
  intro x hx
  rw [(List.mem_replicate.1 hx).2]
  rfl

/-- n tick events in a row end at the n-th. -/
theorem endsAtTick_replicate (n : Nat) : EndsAtTick (n + 1) (List.replicate (n + 1) tickOnly) where
  noReset := noReset_replicate (n + 1)
  ticks := by simp [tickCount, tickOnly, List.countP_replicate]
  last := ⟨tickOnly, by simp [List.getLast?_replicate], rfl⟩

theorem witness_UnreadBitsHaveNoEffect :
    (0x1ABCDEF#27 : CmdWord) &&& readMask (decodeCmd 0x1ABCDEF#27) =
      (offer 0x1000000#27).cmd &&& readMask (decodeCmd (offer 0x1000000#27).cmd) ∧
    assembleLine base.cfg.toParams (.mark 17) = some [0x4000011#27] := by decide

theorem witness_StepRunsDecodedInstruction :
    (base.driven [offer 0x4000011#27]).now.rst = false ∧ (base.driven [offer 0x4000011#27]).seg = .idle ∧
    (base.driven [offer 0x4000011#27]).now.cmdValid = true := by decide

/-- A state in each segment, with CNT at each side of the bound of R102. -/
theorem witness_CycleDoesExactlyOneCase :
    base.seg = .idle ∧ inMark.seg ≠ .idle ∧ 1#24 < inMark.cnt ∧ inLastMark.seg ≠ .idle ∧ ¬ 1#24 < inLastMark.cnt ∧
    (∀ g : Seg, { base with seg := g }.seg = g) := by
  exact ⟨by decide, by decide, by decide, by decide, by decide, fun _ => rfl⟩

theorem witness_ResetEdgeGivesResetValues : (inMark.driven [resetAll]).now.rst = true := by decide

theorem witness_HoldingResetKeepsResetState :
    [resetAll, resetAll] ≠ [] ∧ (∀ x ∈ [resetAll, resetAll], x.rst = true) ∧
    (offer 0x1000000#27).rst = false ∧ (offer 0x1000000#27).cmdValid = true := by decide

theorem witness_NothingEverStops : 2 ^ 27 - 1 < 2 ^ 27 := by decide

theorem witness_OutputsAreFunctionsOfRegisters :
    SameRegisters inMark (inMark.driven [quiet]) ∧ (inMark.driven [quiet]).now.rst = (inMark.driven [tickOnly]).now.rst :=
  ⟨⟨rfl, rfl, rfl, rfl, rfl, rfl, rfl⟩, rfl⟩

theorem witness_TickInIdleIsNotCounted :
    base.seg = .idle ∧ resetAll.rst = true ∧ inMark.seg ≠ .idle ∧ quiet.rst = false ∧ quiet.cmdValid = false := by decide

theorem witness_BusyBlockAcceptsNoCommand :
    inMark.seg ≠ .idle ∧ (inMark.driven [tickOnly]).now.rst = false ∧ ∃ t, step (inMark.driven [tickOnly]) = .next t :=
  ⟨by decide, rfl, _, step_driven_cons tickOnly [] inMark⟩

theorem witness_SegmentHoldsWithoutTicks :
    inMark.seg ≠ .idle ∧ NoReset [offer 0x0000000#27, quiet] ∧ NoTick [offer 0x0000000#27, quiet] := by
  refine ⟨by decide, ?_, ?_⟩ <;> intro x hx <;> simp at hx <;> rcases hx with rfl | rfl <;> rfl

theorem witness_ParametersNeverChange :
    (∃ t, step (inMark.driven [tickOnly]) = .next t) ∧ ∃ t, exec (.dispatch 100#10) base = .next t :=
  ⟨⟨_, step_driven_cons tickOnly [] inMark⟩, _, exec_eq_startState _ _⟩

theorem witness_OfferedWordRunsNext : 0x7FFFFFF < 2 ^ 27 ∧ base.seg = .idle ∧ inMark.seg ≠ .idle := by decide

theorem witness_DisableTurnsCarrierOff :
    opField 0x0FFFFFF#27 = 0#3 ∧ base.ce = false ∧ ∃ t, exec .enable base = .next t :=
  ⟨by decide, rfl, _, rfl⟩

theorem witness_EnableTurnsCarrierOn : opField 0x1FFFFFF#27 = 1#3 ∧ inMark.ce = true := by decide

theorem witness_WaitStartsItsCount : (0#24 : Ticks) = 0#24 ∧ (1#24 : Ticks) ≠ 0#24 ∧ (0xFFFFFF#24 : Ticks) ≠ 0#24 := by decide

theorem witness_MarkAndGapStart : (0#8 : Duration) = 0#8 ∧ (1#8 : Duration) ≠ 0#8 ∧ (255#8 : Duration) ≠ 0#8 := by decide

theorem witness_DispatchStartsFrameOrDelay :
    decodeLevel base.cfg.toParams 972#10 = some .input ∧ decodeLevel base.cfg.toParams 973#10 = none := by decide

/-- Each segment at its last tick. -/
theorem witness_SegmentsEnd (g : Seg) :
    (State.driven { base with seg := g, cnt := 1#24 } [tickOnly]).now.rst = false ∧
    (State.driven { base with seg := g, cnt := 1#24 } [tickOnly]).now.tick = true ∧
    (State.driven { base with seg := g, cnt := 1#24 } [tickOnly]).cnt = 1#24 ∧
    (State.driven { base with seg := g, cnt := 1#24 } [tickOnly]).seg = g := ⟨rfl, rfl, rfl, rfl⟩

/-- The clauses of the end of a bit-mark, at both sides of I = 47 and for both values of DLY. -/
theorem witness_BitMarkEnds :
    (inLastMark.driven [tickOnly]).now.rst = false ∧ (inLastMark.driven [tickOnly]).now.tick = true ∧
    inLastMark.cnt = 1#24 ∧ inLastMark.seg = .bitMark ∧
    (State.mk true .bitMark 1#24 0#48 46#6 false 0#4 base.cfg [] 0).i.toNat < 47 ∧
    47 ≤ inLastMark.i.toNat ∧ inLastMark.dly = false ∧ (State.mk true .bitMark 1#24 0#48 47#6 true 0#4 base.cfg [] 0).dly = true := by
  decide

/-- Both ends of every range of the default table of R160. -/
theorem witness_DecoderFollowsTheThresholds :
    [0, 64, 65, 191, 192, 320, 321, 452, 453, 585, 586, 714, 715, 843, 844, 972, 973, 999, 1000, 1023].map
        (fun n => buttonCode (decodeLevel base.cfg.toParams (BitVec.ofNat 10 n))) =
      [1#4, 1#4, 2#4, 2#4, 3#4, 3#4, 4#4, 4#4, 5#4, 5#4, 6#4, 6#4, 7#4, 7#4, 8#4, 8#4, 0#4, 0#4, 0#4, 0#4] ∧
    base.cfg.noneAbove = (Config.default 0 1 1).noneAbove ∧
    (∀ b, base.cfg.th b = (Config.default 0 1 1).th b) := by
  refine ⟨by decide, rfl, fun _ => rfl⟩

theorem inMark_inv : inMark.Inv := by constructor <;> decide

theorem witness_EveryStepKeepsInvariant :
    inMark.Inv ∧ AtReset base ∧ (∃ t, step (inMark.driven [tickOnly]) = .next t) ∧
    (∃ t, core.run 3 (base.driven [offer 0x4000011#27, tickOnly, tickOnly]) = .next t) ∧
    (∃ t, exec (.wait 3#24) base = .next t) ∧ decodeLevel base.cfg.toParams 1023#10 = none ∧
    (∃ t, exec (.dispatch 1023#10) base = .next t) ∧
    inFrame inLastMark.seg = true ∧ (after { inLastMark with dly := true } tickOnly).seg = .delay :=
  ⟨inMark_inv, ⟨rfl, rfl, rfl, rfl, rfl, rfl, rfl⟩, ⟨_, step_driven_cons tickOnly [] inMark⟩, ⟨_, run_driven [offer 0x4000011#27, tickOnly, tickOnly] base⟩,
    ⟨_, exec_eq_startState _ _⟩, by decide, ⟨_, exec_eq_startState _ _⟩, rfl, by decide⟩

theorem witness_OnlyListedWritersChangeCarrier :
    step (base.driven [offer 0x1000000#27]) = .next (after base (offer 0x1000000#27)) ∧
    (after base (offer 0x1000000#27)).ce ≠ (base.driven [offer 0x1000000#27]).ce := ⟨rfl, by decide⟩

theorem witness_FrameRegistersHold :
    (base.driven [offer 0x5C94900#27]).now.rst = false ∧
    step (base.driven [offer 0x5C94900#27]) = .next (after base (offer 0x5C94900#27)) ∧
    (after base (offer 0x5C94900#27)).f ≠ (base.driven [offer 0x5C94900#27]).f ∧
    (State.driven { base with i := 47#6 } [offer 0x5C94900#27]).i ≠
      (after { base with i := 47#6 } (offer 0x5C94900#27)).i ∧ inFrame inLastMark.seg = true := by
  refine ⟨rfl, rfl, by decide, by decide, rfl⟩

theorem witness_DispatchKeepsNoState :
    base.cfg = inLastMark.cfg ∧ (∃ t, exec (.dispatch 100#10) base = .next t) ∧
    ∃ t, exec (.dispatch 100#10) inLastMark = .next t :=
  ⟨rfl, ⟨_, exec_eq_startState _ _⟩, _, exec_eq_startState _ _⟩

theorem witness_CounterNeverWraps :
    (inMark.driven [tickOnly]).Inv ∧ (inMark.driven [tickOnly]).now.rst = false ∧ inMark.seg ≠ .idle ∧
    step (inMark.driven [tickOnly]) = .next (after inMark tickOnly) := by
  refine ⟨?_, rfl, by decide, rfl⟩
  constructor <;> decide

theorem witness_SegmentCountsExactly :
    inMark.seg ≠ .idle ∧ inMark.cnt.toNat = 2 ∧ EndsAtTick 2 (List.replicate 2 tickOnly) :=
  ⟨by decide, rfl, endsAtTick_replicate 1⟩

theorem witness_TickSpacingChangesNothing :
    NoReset [quiet, tickOnly] ∧
    ∀ k < [quiet, tickOnly].length, ∀ v, core.run k (inMark.driven [quiet, tickOnly]) = .next v → v.seg ≠ .idle := by
  constructor
  · intro x hx
    simp at hx
    rcases hx with rfl | rfl <;> rfl
  · intro k hk v hv
    rw [run_driven_take _ _ (by omega)] at hv
    cases hv
    have : k = 0 ∨ k = 1 := by simp at hk; omega
    rcases this with rfl | rfl <;> decide

theorem witness_MarkAndGapAreExact :
    base.seg = .idle ∧ (offer 0x4000011#27).rst = false ∧ (offer 0x4000011#27).cmdValid = true ∧
    decodeCmd (offer 0x4000011#27).cmd = .mark 17#8 ∧ decodeCmd (offer 0x3000011#27).cmd = .gap 17#8 ∧
    (17#8 : Duration) ≠ 0#8 ∧ EndsAtTick (17#8 : Duration).toNat (List.replicate 17 tickOnly) :=
  ⟨rfl, rfl, rfl, by decide, by decide, by decide, endsAtTick_replicate 16⟩

/-- Every frame length is that of some run: here the frame of payload 0xC94900 with a tick in every cycle. -/
theorem witness_FrameWaveformIsExact :
    ∃ xs, EndsAtTick (frameTicks base.cfg.toParams (0xC94900#24 ++ base.cfg.addr)) xs := by
  have h : frameTicks base.cfg.toParams (0xC94900#24 ++ base.cfg.addr) = 2150 + 1 := by decide
  exact ⟨_, h ▸ endsAtTick_replicate 2150⟩

theorem witness_OperationsTakeTheirTicks :
    base.seg = .idle ∧ (offer 0x70003FF#27).rst = false ∧ (offer 0x70003FF#27).cmdValid = true ∧
    decodeCmd (offer 0x70003FF#27).cmd = .dispatch 1023#10 ∧
    operationTicks base.cfg.toParams (.dispatch 1023#10) ≠ 0 ∧
    EndsAtTick (operationTicks base.cfg.toParams (.dispatch 1023#10)) (List.replicate 5 tickOnly) ∧
    operationTicks base.cfg.toParams (.mark 0#8) = 0 := by
  have h : operationTicks base.cfg.toParams (.dispatch 1023#10) = 4 + 1 := by decide
  exact ⟨rfl, rfl, rfl, by decide, by rw [h]; decide, h ▸ endsAtTick_replicate 4, rfl⟩

theorem witness_ThreeCommandMarkIsLonger :
    base.seg = .idle ∧ NoReset [offer 0x1000000#27, offer 0x2000002#27, offer 0x0000000#27] ∧
    decodeCmd 0x1000000#27 = .enable ∧ decodeCmd 0x2000002#27 = .wait 2#24 ∧ decodeCmd 0x0000000#27 = .disable ∧
    (2#24 : Ticks) ≠ 0#24 ∧ EndsAtTick (2#24 : Ticks).toNat (List.replicate 2 tickOnly) := by
  refine ⟨rfl, ?_, by decide, by decide, by decide, by decide, endsAtTick_replicate 1⟩
  intro x hx
  simp at hx
  rcases hx with rfl | rfl | rfl <;> rfl

end Sys2Proof.Tests
end

section
/-! The settled statements of 00_scope.md. -/

namespace Sys2Proof.Proofs
open Sys2Proof.Machine

/-- Settles O15 (R8): the one next state of a step is `cycleState` of the advanced state, that of an operation is its
`startState`, and neither function writes the configuration. -/
theorem parametersNeverChange : Obligations.ParametersNeverChange := by
  constructor
  · intro s t h
    rw [step_eq_cycleState] at h
    cases h
    exact cycleState_cfg s.now s.advance
  · intro i s t h
    rw [exec_eq_startState] at h
    cases h
    exact startState_cfg i s

end Sys2Proof.Proofs
end

section
/-! What reset, the outputs and the runs of 10_state.md are made of: the reset state, the output functions, agreement on
the registers, and an induction for runs of the machine. -/

namespace Sys2Proof.Machine

/-! ### Reset (R34) -/

/-- A cycle with `rst` = 1 is a reset, whatever the state and the other inputs. -/
theorem step_of_rst {s : State} (h : s.now.rst = true) : step s = .next (resetRegisters s.advance) := by
  simp [step_eq_cycleState, cycleState, h]

theorem atReset_resetRegisters (s : State) : AtReset (resetRegisters s) := ⟨rfl, rfl, rfl, rfl, rfl, rfl, rfl⟩

theorem atReset_reset : AtReset State.reset := ⟨rfl, rfl, rfl, rfl, rfl, rfl, rfl⟩

/-! ### Outputs (R31) -/

theorem cmdReady_iff (s : State) : cmdReady s = true ↔ s.seg = .idle ∧ s.now.rst = false := by
  simp [cmdReady]

theorem cmdReady_of_busy {s : State} (h : s.seg ≠ .idle) : cmdReady s = false := by
  simp [cmdReady, h]

theorem cmdReady_of_rst {s : State} (h : s.now.rst = true) : cmdReady s = false := by
  simp [cmdReady, h]

theorem inFrame_iff (g : Seg) :
    inFrame g = true ↔ g = .preMark ∨ g = .preGap ∨ g = .hdrMark ∨ g = .bitGap ∨ g = .bitMark := by
  cases g <;> simp [inFrame]

/-! ### Agreement on the registers -/

theorem SameRegisters.trans {s t u : State} (h : SameRegisters s t) (k : SameRegisters t u) : SameRegisters s u :=
  ⟨k.ce.trans h.ce, k.seg.trans h.seg, k.cnt.trans h.cnt, k.f.trans h.f, k.i.trans h.i, k.dly.trans h.dly,
    k.btn.trans h.btn⟩

theorem sameRegisters_advance (s : State) : SameRegisters s s.advance := sameRegisters_withEnv _ _ s

theorem sameRegisters_driven (xs : List Inputs) (s : State) : SameRegisters s (s.driven xs) :=
  sameRegisters_withEnv _ _ s

/-! ### Runs -/

/-- What every step keeps, every run keeps. -/
theorem run_keeps {P : State → Prop} (hstep : ∀ s t, P s → step s = .next t → P t) (k : Nat) :
    ∀ s t : State, P s → core.run k s = .next t → P t := by
  induction k with
  | zero =>
    intro s t hs h
    cases h
    exact hs
  | succ k ih =>
    intro s t hs h
    have hnext : core.step s = .next (cycleState s.now s.advance) := step_eq_cycleState s
    simp only [Host.Core.run, hnext] at h
    exact ih _ t (hstep s _ hs hnext) h

/-- A segment does nothing in a cycle with no tick event and no reset (R102). -/
theorem cycleState_of_noTick {x : Inputs} {s : State} (hseg : s.seg ≠ .idle) (hrst : x.rst = false)
    (htick : x.tick = false) : cycleState x s = s := by
  simp [cycleState, hseg, hrst, htick]

/-- R33 along a list of cycles: without tick event and reset a segment keeps every register. -/
theorem sameRegisters_afterCycles_of_noTick {s : State} (hseg : s.seg ≠ .idle) (xs : List Inputs)
    (hrst : NoReset xs) (htick : NoTick xs) : SameRegisters s (afterCycles s xs) := by
  induction xs generalizing s with
  | nil => exact sameRegisters_driven [] s
  | cons x xs ih =>
    obtain ⟨hx, hxs⟩ := List.forall_mem_cons.1 hrst
    obtain ⟨hy, hys⟩ := List.forall_mem_cons.1 htick
    rw [afterCycles_cons, cycleState_of_noTick (by simpa using hseg) hx hy]
    exact (sameRegisters_withEnv _ _ s).trans (ih (by simpa using hseg) hxs hys)

end Sys2Proof.Machine
end

section
/-! The invariant of R36, one lemma for each write of the registers, up to the step. -/

namespace Sys2Proof.Machine

/-- No delay is pending outside a frame (R27). -/
theorem dly_of_inv {s : State} (h : s.Inv) (hframe : inFrame s.seg = false) : s.dly = false := by
  cases hd : s.dly with
  | false => rfl
  | true => exact absurd (h.delayPending hd) (by simp [hframe])

/-- The lines of R36 that say something of a state outside a frame. -/
theorem inv_of_outsideFrame {s : State} (hframe : inFrame s.seg = false) (hidle : s.seg = .idle ↔ s.cnt = 0#24)
    (hi : s.i.toNat ≤ 47) (hbtn : s.btn.toNat ≤ 8) (hdly : s.dly = false)
    (hmark : s.seg = .mark → s.ce = true) (hgap : s.seg = .gap → s.ce = false) : s.Inv where
  seg_code := segCode_le s.seg
  idle_iff := hidle
  index := hi
  button := hbtn
  delayPending h := by simp [hdly] at h
  indexZero h := by rcases h with h | h | h <;> simp [h, inFrame] at hframe
  markOn := hmark
  gapOff h := by
    rcases h with h | h | h
    · exact hgap h
    · simp [h, inFrame] at hframe
    · simp [h, inFrame] at hframe
  frameMarkOn h := by rcases h with h | h | h <;> simp [h, inFrame] at hframe

/-- The lines of R36 that say something of a state in a frame. -/
theorem inv_of_inFrame {s : State} (hframe : inFrame s.seg = true) (hcnt : s.cnt ≠ 0#24)
    (hi : s.i.toNat ≤ 47) (hbtn : s.btn.toNat ≤ 8)
    (hzero : s.seg = .preMark ∨ s.seg = .preGap ∨ s.seg = .hdrMark → s.i = 0#6)
    (hce : s.ce = true ↔ s.seg = .preMark ∨ s.seg = .hdrMark ∨ s.seg = .bitMark) : s.Inv where
  seg_code := segCode_le s.seg
  idle_iff := by
    have hbusy : s.seg ≠ .idle := by intro h; simp [h, inFrame] at hframe
    simp [hcnt, hbusy]
  index := hi
  button := hbtn
  delayPending _ := hframe
  indexZero := hzero
  markOn h := by simp [h, inFrame] at hframe
  gapOff h := by rcases h with h | h | h <;> simpa [h] using hce
  frameMarkOn := hce.2

theorem inv_of_sameRegisters {s t : State} (h : s.Inv) (hst : SameRegisters s t) : t.Inv := by
  obtain ⟨hce, hseg, hcnt, -, hi, hdly, hbtn⟩ := hst
  constructor
  · exact segCode_le t.seg
  · rw [hseg, hcnt]; exact h.idle_iff
  · rw [hi]; exact h.index
  · rw [hbtn]; exact h.button
  · rw [hdly, hseg]; exact h.delayPending
  · rw [hseg, hi]; exact h.indexZero
  · rw [hseg, hce]; exact h.markOn
  · rw [hseg, hce]; exact h.gapOff
  · rw [hseg, hce]; exact h.frameMarkOn

/-! ### Reset and the shared writes -/

theorem inv_of_atReset {s : State} (h : AtReset s) : s.Inv :=
  inv_of_outsideFrame (by simp [h.seg, inFrame]) (by simp [h.seg, h.cnt]) (by simp [h.i]) (by simp [h.btn]) h.dly
    (by simp [h.seg]) (by simp [h.seg])

theorem inv_goIdle {s : State} (h : s.Inv) (hdly : s.dly = false) : (goIdle s).Inv :=
  inv_of_outsideFrame rfl (by simp) h.index h.button hdly (by simp) (by simp)

theorem inv_setCarrier_of_idle {s : State} (h : s.Inv) (hseg : s.seg = .idle) (b : Bool) : (setCarrier b s).Inv := by
  have hframe : inFrame s.seg = false := by rw [hseg]; rfl
  have hdly : s.dly = false := dly_of_inv h hframe
  exact inv_of_outsideFrame hframe h.idle_iff h.index h.button hdly (by simp [hseg]) (by simp [hseg])

theorem inv_setButton {s : State} (h : s.Inv) (b : ButtonState) : (setButton b s).Inv :=
  { h with button := buttonCode_le b }

theorem inv_startFrame {s : State} (h : s.Inv) (p : Payload) (d : Bool) : (startFrame p d s).Inv :=
  inv_of_inFrame rfl (by simp [s.cfg.tPreMark_ne_zero]) (by simp) h.button (by simp) (by simp)

theorem inv_enterDelay {s : State} (h : s.Inv) (hdly : s.dly = false) : (enterDelay s).Inv :=
  inv_of_outsideFrame rfl (by simp [s.cfg.delayTicks_ne_zero]) h.index h.button hdly (by simp) (by simp)

theorem inv_startBitCell {s : State} (h : s.Inv) {k : BitVec 6} (hk : k.toNat ≤ 47) : (startBitCell k s).Inv :=
  inv_of_inFrame rfl (by simp [gapLen_ne_zero]) hk h.button (by simp) (by simp)

/-! ### The start actions -/

theorem inv_startState {s : State} (h : s.Inv) (hseg : s.seg = .idle) (i : Instr) : (startState i s).Inv := by
  have hdly : s.dly = false := dly_of_inv h (by rw [hseg]; rfl)
  cases i with
  | disable => exact inv_setCarrier_of_idle h hseg false
  | enable => exact inv_setCarrier_of_idle h hseg true
  | wait n =>
    by_cases hn : n = 0#24
    · simpa [startState, hn] using h
    · simp only [startState, hn, if_false]
      exact inv_of_outsideFrame rfl (by simp [hn]) h.index h.button hdly (by simp) (by simp)
  | gap d =>
    by_cases hd : d = 0#8
    · simpa [startState, hd] using inv_setCarrier_of_idle h hseg false
    · simp only [startState, hd, if_false]
      exact inv_of_outsideFrame rfl (by simp [hd]) h.index h.button hdly (by simp) (by simp)
  | mark d =>
    by_cases hd : d = 0#8
    · simpa [startState, hd] using inv_setCarrier_of_idle h hseg false
    · simp only [startState, hd, if_false]
      exact inv_of_outsideFrame rfl (by simp [hd]) h.index h.button hdly (by simp) (by simp)
  | transmit p => exact inv_startFrame h p false
  | decode l => exact inv_setButton h _
  | dispatch l =>
    have hb := inv_setButton h (decodeLevel s.cfg.toParams l)
    rw [startState]
    rcases dispatchButton_cases (decodeLevel s.cfg.toParams l) (setButton (decodeLevel s.cfg.toParams l) s) with
      ⟨k, -, hk⟩ | ⟨-, hk⟩
    · rw [hk]; exact inv_startFrame hb _ true
    · rw [hk]; exact inv_enterDelay hb hdly

/-! ### Tick events and segment ends -/

theorem inv_countDown {s : State} (h : s.Inv) (hcnt : 1#24 < s.cnt) : (countDown s).Inv := by
  have hbusy : s.seg ≠ .idle := by
    intro hs
    rw [h.idle_iff.1 hs] at hcnt
    exact absurd hcnt (by decide)
  have hcount : s.cnt - 1#24 ≠ 0#24 := by bv_omega
  exact { h with idle_iff := by simp [hbusy, hcount] }

theorem inv_delayAfterFrame {s : State} (h : s.Inv) : (delayAfterFrame s).Inv :=
  inv_of_outsideFrame rfl (by simp [delayAfterFrame, s.cfg.delayTicks_ne_zero]) h.index h.button rfl
    (by simp [delayAfterFrame]) (by simp [delayAfterFrame])

/-- The index of the next bit cell stays in 0..47 (R146). -/
theorem inv_endBitMark {s : State} (h : s.Inv) : (endBitMark s).Inv := by
  rcases endBitMark_cases s with ⟨hi, he⟩ | ⟨-, -, he⟩ | ⟨-, hdly, he⟩
  · rw [he]; exact inv_startBitCell h (by bv_omega)
  · rw [he]; exact inv_delayAfterFrame h
  · rw [he]; exact inv_setCarrier_of_idle (inv_goIdle h hdly) rfl false

theorem inv_endSegment {s : State} (h : s.Inv) : (endSegment s).Inv := by
  have hdly (hframe : inFrame s.seg = false) : s.dly = false := dly_of_inv h hframe
  unfold endSegment
  cases hs : s.seg with
  | idle => exact h
  | wait | gap | delay => exact inv_goIdle h (hdly (by rw [hs]; rfl))
  | mark => exact inv_setCarrier_of_idle (inv_goIdle h (hdly (by rw [hs]; rfl))) rfl false
  | preMark =>
    exact inv_of_inFrame rfl (by simp [endPreMark, s.cfg.tPreGap_ne_zero]) h.index h.button
      (fun _ => h.indexZero (.inl hs)) (by simp [endPreMark])
  | preGap =>
    exact inv_of_inFrame rfl (by simp [endPreGap, s.cfg.tBitMark_ne_zero]) h.index h.button
      (fun _ => h.indexZero (.inr (.inl hs))) (by simp [endPreGap])
  | hdrMark => exact inv_startBitCell h (by simp)
  | bitGap =>
    exact inv_of_inFrame rfl (by simp [endBitGap, s.cfg.tBitMark_ne_zero]) h.index h.button
      (by simp [endBitGap]) (by simp [endBitGap])
  | bitMark => exact inv_endBitMark h

theorem inv_countTick {s : State} (h : s.Inv) : (countTick s).Inv := by
  rcases countTick_cases s with ⟨hcnt, he⟩ | ⟨-, he⟩
  · rw [he]; exact inv_countDown h hcnt
  · rw [he]; exact inv_endSegment h

/-- Every step keeps the invariant of R36. -/
theorem inv_step {s t : State} (h : s.Inv) (hst : step s = .next t) : t.Inv := by
  have ha : s.advance.Inv := inv_of_sameRegisters h (sameRegisters_advance s)
  rcases step_cases hst with ⟨-, rfl⟩ | ⟨-, hseg, -, rfl⟩ | ⟨-, -, -, rfl⟩ | ⟨-, -, -, rfl⟩ | ⟨-, -, -, rfl⟩
  · exact inv_of_atReset (atReset_resetRegisters s.advance)
  · exact inv_startState ha hseg _
  · exact ha
  · exact inv_countTick ha
  · exact ha

/-! ### CE in WAIT and in DELAY (the remarks of R36) -/

theorem startState_wait_ce (n : Ticks) (s : State) : (startState (.wait n) s).ce = s.ce := by
  by_cases hn : n = 0#24 <;> simp [startState, hn]

theorem startState_dispatch_none_ce {s : State} {l : Level} (hl : decodeLevel s.cfg.toParams l = none) :
    (startState (.dispatch l) s).ce = s.ce := by
  simp [startState, hl, dispatchButton]

/-- Of the ends of the frame's segments only that of a BIT_MARK enters the delay, with the carrier off (R172). -/
theorem endSegment_ce_of_delay {s : State} (hframe : inFrame s.seg = true) (hdelay : (endSegment s).seg = .delay) :
    (endSegment s).ce = false := by
  unfold endSegment at hdelay ⊢
  cases hs : s.seg with
  | idle | wait | mark | gap | delay => simp [hs, inFrame] at hframe
  | preMark | hdrMark => rfl
  | preGap => simp [hs, endPreGap] at hdelay
  | bitGap => simp [hs, endBitGap] at hdelay
  | bitMark => rcases endBitMark_cases s with ⟨_, he⟩ | ⟨_, _, he⟩ | ⟨_, _, he⟩ <;> simp only [he] <;> rfl

/-- A DELAY that a frame's segment is followed by has CE = 0. -/
theorem step_ce_of_delayAfterFrame {s t : State} (hframe : inFrame s.seg = true) (hst : step s = .next t)
    (hdelay : t.seg = .delay) : t.ce = false := by
  have hnot : s.seg ≠ .idle := by intro h; simp [h, inFrame] at hframe
  have hstay : s.seg ≠ .delay := by intro h; simp [h, inFrame] at hframe
  rcases step_cases hst with ⟨-, rfl⟩ | ⟨-, hseg, -⟩ | ⟨-, hseg, -⟩ | ⟨-, -, -, rfl⟩ | ⟨-, -, -, rfl⟩
  · rfl
  · exact absurd hseg hnot
  · exact absurd hseg hnot
  · rcases countTick_cases s.advance with ⟨-, he⟩ | ⟨-, he⟩
    · rw [he] at hdelay
      exact absurd hdelay hstay
    · rw [he] at hdelay ⊢
      exact endSegment_ce_of_delay hframe hdelay
  · exact absurd hdelay hstay

end Sys2Proof.Machine
end

section
/-! Who writes F and I (R35, R26). -/

namespace Sys2Proof.Machine

/-- A start action starts a frame or leaves F and I. -/
theorem startState_startsFrame_or_keeps (i : Instr) (s : State) :
    ((startState i s).seg = .preMark ∧ (startState i s).i = 0#6) ∨
    ((startState i s).f = s.f ∧ (startState i s).i = s.i) := by
  cases i with
  | disable | enable | decode _ => exact .inr ⟨rfl, rfl⟩
  | wait n => by_cases hn : n = 0#24 <;> simp [startState, hn]
  | gap d => by_cases hd : d = 0#8 <;> simp [startState, hd]
  | mark d => by_cases hd : d = 0#8 <;> simp [startState, hd]
  | transmit _ => exact .inl ⟨rfl, rfl⟩
  | dispatch l =>
    rw [startState]
    rcases dispatchButton_cases (decodeLevel s.cfg.toParams l) (setButton (decodeLevel s.cfg.toParams l) s) with
      ⟨k, -, hk⟩ | ⟨-, hk⟩
    · rw [hk]; exact .inl ⟨rfl, rfl⟩
    · rw [hk]; exact .inr ⟨rfl, rfl⟩

/-- Of the segment ends only those of HDR_MARK and BIT_MARK write I. -/
theorem endSegment_i {s : State} (hhdr : s.seg ≠ .hdrMark) (hbit : s.seg ≠ .bitMark) : (endSegment s).i = s.i := by
  unfold endSegment
  cases hs : s.seg with
  | hdrMark => exact absurd hs hhdr
  | bitMark => exact absurd hs hbit
  | idle | wait | mark | gap | preMark | preGap | bitGap | delay => rfl

theorem countTick_f (s : State) : (countTick s).f = s.f := by
  rcases countTick_cases s with ⟨-, he⟩ | ⟨-, he⟩
  · rw [he, countDown_f]
  · rw [he]; exact (endSegment_frame s).1

theorem countTick_i {s : State} (hhdr : s.seg ≠ .hdrMark) (hbit : s.seg ≠ .bitMark) : (countTick s).i = s.i := by
  rcases countTick_cases s with ⟨-, he⟩ | ⟨-, he⟩
  · rw [he, countDown_i]
  · rw [he]; exact endSegment_i hhdr hbit

/-- A step without reset starts a frame from IDLE, or it leaves F, and I outside HDR_MARK and BIT_MARK. -/
theorem step_startsFrame_or_keeps {s t : State} (hrst : s.now.rst = false) (hst : step s = .next t) :
    (s.seg = .idle ∧ t.seg = .preMark ∧ t.i = 0#6) ∨
    (t.f = s.f ∧ (s.seg ≠ .hdrMark → s.seg ≠ .bitMark → t.i = s.i)) := by
  rcases step_cases hst with ⟨hr, -⟩ | ⟨-, hseg, -, rfl⟩ | ⟨-, -, -, rfl⟩ | ⟨-, -, -, rfl⟩ | ⟨-, -, -, rfl⟩
  · simp [hrst] at hr
  · rcases startState_startsFrame_or_keeps (decodeCmd s.now.cmd) s.advance with hstart | ⟨hf, hi⟩
    · exact .inl ⟨hseg, hstart⟩
    · exact .inr ⟨hf, fun _ _ => hi⟩
  · exact .inr ⟨rfl, fun _ _ => rfl⟩
  · exact .inr ⟨countTick_f s.advance, fun hhdr hbit => countTick_i (s := s.advance) hhdr hbit⟩
  · exact .inr ⟨rfl, fun _ _ => rfl⟩

end Sys2Proof.Machine
end

section
/-! The settled statements of 10_state.md. -/

namespace Sys2Proof.Proofs
open Sys2Proof.Machine

/-- Settles O31 (R36): each write of the registers keeps the nine lines, hence every step and every run from a state
at reset; what R36 remarks on CE is read off the start actions and the end of the last BIT_MARK. -/
theorem everyStepKeepsInvariant : Obligations.EveryStepKeepsInvariant := by
  refine ⟨fun _ _ h hst => inv_step h hst, ?_, ?_, ?_, fun _ _ => step_ce_of_delayAfterFrame⟩
  · intro s t k hs hrun
    exact run_keeps (fun _ _ h hst => inv_step h hst) k s t (inv_of_atReset hs) hrun
  · intro s t n hex
    rw [exec_eq_startState] at hex
    cases hex
    exact startState_wait_ce n s
  · intro s t l hl hex
    rw [exec_eq_startState] at hex
    cases hex
    exact startState_dispatch_none_ce hl

/-- Settles O14 (R33): a cycle without tick event and reset leaves a segment's registers, by induction over the cycles;
the state after `k` of them is still in the segment, so `cmd_ready` is 0. -/
theorem segmentHoldsWithoutTicks : Obligations.SegmentHoldsWithoutTicks := by
  intro s xs hseg hrst htick
  refine ⟨⟨_, run_driven xs s, sameRegisters_afterCycles_of_noTick hseg xs hrst htick⟩, ?_⟩
  intro k hk
  have hkeep : SameRegisters s (afterCycles s (xs.take k)) :=
    sameRegisters_afterCycles_of_noTick hseg _ (fun x hx => hrst x (List.mem_of_mem_take hx))
      (fun x hx => htick x (List.mem_of_mem_take hx))
  have hu : SameRegisters s ((afterCycles s (xs.take k)).driven (xs.drop k)) := hkeep.trans (sameRegisters_driven _ _)
  exact ⟨_, run_driven_take xs s hk.le, hu, cmdReady_of_busy (by rwa [hu.seg])⟩

/-- Settles O33 (R35, R26): without reset a step starts a frame from IDLE or keeps F, and I outside HDR_MARK and
BIT_MARK. -/
theorem frameRegistersHold : Obligations.FrameRegistersHold := by
  intro s t hrst hst
  rcases step_startsFrame_or_keeps hrst hst with hstart | ⟨hf, hi⟩
  · exact ⟨fun hframe => by simp [hstart.1, inFrame] at hframe, fun _ => hstart, fun _ _ _ _ => hstart⟩
  · exact ⟨fun _ => hf, fun hne => absurd hf hne, fun hhdr _ hbit hne => absurd (hi hhdr hbit) hne⟩

/-- Settles O8 (R34, R220): with `rst` = 1 the step is `resetRegisters` of the advanced state. -/
theorem resetEdgeGivesResetValues : Obligations.ResetEdgeGivesResetValues :=
  ⟨atReset_reset, fun s hrst =>
    ⟨cmdReady_of_rst hrst, _, step_of_rst hrst, atReset_resetRegisters s.advance, rfl, rfl⟩⟩

/-- Settles O11 (R31): the outputs read CE, SEG, BTN and `rst`, on which the two states agree. -/
theorem outputsAreFunctionsOfRegisters : Obligations.OutputsAreFunctionsOfRegisters := by
  constructor
  · intro s
    exact ⟨rfl, cmdReady_iff s, rfl, inFrame_iff s.seg⟩
  · intro s t h
    refine ⟨h.ce.symm, h.btn.symm, congrArg inFrame h.seg.symm, fun hrst => ?_⟩
    rw [Bool.eq_iff_iff, cmdReady_iff, cmdReady_iff, h.seg, hrst]

/-- Settles O30 (R36): the reset state is at reset. -/
theorem resetStateMeetsInvariant : Obligations.ResetStateMeetsInvariant := inv_of_atReset atReset_reset

end Sys2Proof.Proofs
end

section
/-! The decoder by its OP values, the words as OP and ARG, and what decoding and encoding do to each other
(R70, R72, R73, R76, R78). -/

namespace Sys2Proof.Laws

/-! ### A word is its two fields -/

theorem word_ext {v w : CmdWord} (hop : opField v = opField w) (harg : argField v = argField w) : v = w := by
  apply BitVec.eq_of_getLsbD_eq
  intro k _
  rw [word_fields v, word_fields w, hop, harg]

theorem opField_and (v w : CmdWord) : opField (v &&& w) = opField v &&& opField w := BitVec.extractLsb'_and

theorem argField_and (v w : CmdWord) : argField (v &&& w) = argField v &&& argField w := BitVec.extractLsb'_and

/-- OP is read whatever the operation. -/
theorem opField_readMask (i : Instr) : opField (readMask i) = BitVec.allOnes 3 := by
  cases i <;> simp only [readMask] <;> decide

/-! ### The decoder's eight cases -/

/-- One inversion lemma for the decoder: the row of R76 that OP selects. -/
theorem decodeCmd_cases (w : CmdWord) :
    (opField w = 0#3 ∧ decodeCmd w = .disable) ∨
    (opField w = 1#3 ∧ decodeCmd w = .enable) ∨
    (opField w = 2#3 ∧ decodeCmd w = .wait (argField w)) ∨
    (opField w = 3#3 ∧ decodeCmd w = .gap ((argField w).extractLsb' 0 8)) ∨
    (opField w = 4#3 ∧ decodeCmd w = .mark ((argField w).extractLsb' 0 8)) ∨
    (opField w = 5#3 ∧ decodeCmd w = .transmit (argField w)) ∨
    (opField w = 6#3 ∧ decodeCmd w = .decode ((argField w).extractLsb' 0 10)) ∨
    (opField w = 7#3 ∧ decodeCmd w = .dispatch ((argField w).extractLsb' 0 10)) := by
  unfold decodeCmd countOperand durationOperand payloadOperand levelOperand
  generalize opField w = op
  have hop : op = 0#3 ∨ op = 1#3 ∨ op = 2#3 ∨ op = 3#3 ∨ op = 4#3 ∨ op = 5#3 ∨ op = 6#3 ∨ op = 7#3 := by
    revert op
    decide
  rcases hop with rfl | rfl | rfl | rfl | rfl | rfl | rfl | rfl <;> simp

/-- The decoded operation is the row of the word's OP (R72). -/
theorem opcode_decodeCmd (w : CmdWord) : opcode (decodeCmd w) = opField w := by
  rcases decodeCmd_cases w with ⟨hop, hi⟩ | ⟨hop, hi⟩ | ⟨hop, hi⟩ | ⟨hop, hi⟩ | ⟨hop, hi⟩ | ⟨hop, hi⟩ | ⟨hop, hi⟩ |
    ⟨hop, hi⟩ <;> rw [hop, hi] <;> rfl

/-! ### Operands narrower than ARG -/

/-- An operand taken from the low bits and put back is ARG with the bits above it cleared. -/
theorem setWidth_extractLsb'_zero {n k : Nat} (a : BitVec n) :
    (a.extractLsb' 0 k).setWidth n = a &&& BitVec.ofNat n (2 ^ k - 1) := by
  apply BitVec.eq_of_getLsbD_eq
  intro j hj
  simp only [BitVec.getLsbD_setWidth, BitVec.getLsbD_extractLsb', BitVec.getLsbD_and, BitVec.getLsbD_ofNat,
    Nat.testBit_two_pow_sub_one, hj, decide_true, Bool.true_and, zero_add, Bool.and_comm]

/-- The operand of a decoded word is ARG with the bits cleared that R73 does not read. -/
theorem argument_decodeCmd (w : CmdWord) :
    argument (decodeCmd w) = argField w &&& argField (readMask (decodeCmd w)) := by
  have hnone : argField 0x7000000#27 = 0#24 := by decide
  have hall : argField 0x7FFFFFF#27 = 0xFFFFFF#24 := by decide
  have hones : argField w &&& 0xFFFFFF#24 = argField w := BitVec.and_allOnes
  have hduration : argField 0x70000FF#27 = BitVec.ofNat 24 (2 ^ 8 - 1) := by decide
  have hlevel : argField 0x70003FF#27 = BitVec.ofNat 24 (2 ^ 10 - 1) := by decide
  rcases decodeCmd_cases w with ⟨-, hi⟩ | ⟨-, hi⟩ | ⟨-, hi⟩ | ⟨-, hi⟩ | ⟨-, hi⟩ | ⟨-, hi⟩ | ⟨-, hi⟩ | ⟨-, hi⟩ <;>
    simp [hi, argument, readMask, hnone, hall, hones, hduration, hlevel, setWidth_extractLsb'_zero]

/-! ### Decode and encode -/

/-- The operand of R73 fits its field, so every instruction is well formed. -/
theorem wellFormed_all (i : Instr) : i.wellFormed = true := by
  cases i with
  | disable => exact OpField.disable.2
  | enable => exact OpField.enable.2
  | wait n => exact (OpField.wait n).2
  | gap d => exact (OpField.gap d).2
  | mark d => exact (OpField.mark d).2
  | transmit p => exact (OpField.transmit p).2
  | decode l => exact (OpField.decode l).2
  | dispatch l => exact (OpField.dispatch l).2

/-- Decoding an encoded instruction gives it back. -/
@[simp] theorem decodeCmd_encode (i : Instr) : decodeCmd (encode i) = i := by
  have hop : opField (encode i) = opcode i := opField_encode i
  have harg : argField (encode i) = argument i := argField_encode i
  cases i <;> simp [decodeCmd, hop, opcode, countOperand, durationOperand, payloadOperand, levelOperand, harg, argument,
    BitVec.extractLsb'_setWidth_of_le]

/-- Encoding a decoded word clears the bits that are not read, and no other. -/
theorem encode_decodeCmd (w : CmdWord) : encode (decodeCmd w) = w &&& readMask (decodeCmd w) := by
  apply word_ext
  · rw [opField_encode, opcode_decodeCmd, opField_and, opField_readMask, BitVec.and_allOnes]
  · rw [argField_encode, argument_decodeCmd, argField_and]

/-- Words that agree on the bits that are read are one operation with one operand (R75). -/
theorem decodeCmd_eq_of_read_eq {v w : CmdWord} (h : v &&& readMask (decodeCmd v) = w &&& readMask (decodeCmd w)) :
    decodeCmd v = decodeCmd w :=
  calc decodeCmd v = decodeCmd (encode (decodeCmd v)) := (decodeCmd_encode _).symm
    _ = decodeCmd (encode (decodeCmd w)) := by rw [encode_decodeCmd v, h, encode_decodeCmd w]
    _ = decodeCmd w := decodeCmd_encode _

/-- An encoded word has its unread bits 0. -/
theorem encode_and_readMask (i : Instr) : encode i &&& readMask (decodeCmd (encode i)) = encode i := by
  rw [← encode_decodeCmd, decodeCmd_encode]

/-- The word as the number `(OP << 24) | operand` (R78). -/
theorem encode_eq_ofNat (i : Instr) :
    encode i = BitVec.ofNat 27 ((opcode i).toNat * 2 ^ 24 + (argument i).toNat) := by
  apply BitVec.eq_of_toNat_eq
  have hop := (opcode i).isLt
  have harg := (argument i).isLt
  rw [encode, BitVec.toNat_append, ← Nat.shiftLeft_add_eq_or_of_lt harg, Nat.shiftLeft_eq, BitVec.toNat_ofNat,
    Nat.mod_eq_of_lt (by omega)]

end Sys2Proof.Laws
end

section
/-! The assembler, line by line (R78, R79), and what a cycle reads of its command word (R71, R75). -/

namespace Sys2Proof.Machine
open Sys2Proof.Laws

/-- A cycle reads of its command word the decoded operation alone. -/
theorem cycleState_of_decodeCmd_eq {x : Inputs} {w : CmdWord} (h : decodeCmd w = decodeCmd x.cmd) (s : State) :
    cycleState { x with cmd := w } s = cycleState x s := by
  simp only [cycleState, h]

/-! ### Core lines -/

/-- Every result of a refusable map over a list is the result of one of its elements. -/
theorem exists_of_mem_mapM {α β : Type} {g : α → Option β} {b : β} (as : List α) :
    ∀ {bs : List β}, as.mapM g = some bs → b ∈ bs → ∃ a ∈ as, g a = some b := by
  induction as with
  | nil =>
    intro bs h hb
    cases h
    cases hb
  | cons a as ih =>
    intro bs h hb
    simp only [List.mapM_cons, Option.bind_eq_bind, Option.bind_eq_some_iff, Option.pure_def, Option.some.injEq] at h
    obtain ⟨c, hc, cs, hcs, rfl⟩ := h
    rcases List.mem_cons.1 hb with rfl | hb
    · exact ⟨a, List.mem_cons_self, hc⟩
    · obtain ⟨a', ha', hg⟩ := ih hcs hb
      exact ⟨a', List.mem_cons_of_mem a ha', hg⟩

/-- Every word of an assembled line is the word of some instruction. -/
theorem exists_encode_of_mem_assembleLine {p : Params} {l : AsmLine} {ws : List CmdWord}
    (h : assembleLine p l = some ws) {w : CmdWord} (hw : w ∈ ws) : ∃ i, w = encode i := by
  obtain ⟨ls, -, hls⟩ := Option.bind_eq_some_iff.1 h
  obtain ⟨x, -, hx⟩ := exists_of_mem_mapM ls hls hw
  obtain ⟨i, -, hi⟩ := Option.map_eq_some_iff.1 hx
  exact ⟨i, hi.symm⟩

/-- A core line stands for itself: it is its operation's word, or it is refused. -/
theorem assembleLine_of_core {p : Params} {l : AsmLine} (hcore : expandLine p l = some [l]) :
    assembleLine p l = (lineInstr l).map fun i => [encode i] := by
  rw [assembleLine, hcore]
  cases hl : lineInstr l <;> simp [hl]

/-- R78 for a core line with an operand: in range the word `(OP << 24) | operand`, else no word. -/
theorem assembleLine_of_range {p : Params} {l : AsmLine} {i : Instr} {n bound : Nat}
    (hcore : expandLine p l = some [l]) (hline : lineInstr l = if n < bound then some i else none)
    (harg : n < bound → (argument i).toNat = n) :
    assembleLine p l = if n < bound then some [BitVec.ofNat 27 ((opcode i).toNat * 2 ^ 24 + n)] else none := by
  rw [assembleLine_of_core hcore, hline]
  by_cases hn : n < bound
  · simp only [if_pos hn, Option.map_some, encode_eq_ofNat, harg hn]
  · simp only [if_neg hn, Option.map_none]

/-! ### Pseudo-instructions with the defaults -/

/-- NOP's operation completes in its acceptance cycle and writes nothing (R105). -/
theorem exec_wait_zero (s : State) : exec (.wait 0#24) s = .next s := exec_eq_startState (.wait 0#24) s

/-- The assembler reads none of the three OPEN parameters, so what it gives with the defaults is computed with one
choice of them. -/
theorem assembleLine_defaultParams (delay : Fin 16777215) (carrier clk : Nat) (l : AsmLine) :
    assembleLine (Config.defaultParams delay carrier clk) l = assembleLine (Config.defaultParams 0 0 0) l := rfl

/-- Nor does the decode function. -/
theorem decodeLevel_defaultParams (delay : Fin 16777215) (carrier clk : Nat) (l : Level) :
    decodeLevel (Config.defaultParams delay carrier clk) l = decodeLevel (Config.defaultParams 0 0 0) l := rfl

/-- With the defaults BASE[k] is a level of button k, as TH[k-1] ≤ BASE[k] < TH[k] (R79). -/
theorem decodeLevel_defaultBase (b : Button) :
    decodeLevel (Config.defaultParams 0 0 0) (BitVec.ofInt 10 (Config.defaultBase.get b)) = some b := by
  cases b <;> decide

end Sys2Proof.Machine
end

section
/-! The settled statements of 30_encoding.md. -/

namespace Sys2Proof.Proofs
open Sys2Proof.Machine Sys2Proof.Laws

/-- Settles O2 (R72, R73, R76, R78): by the eight rows of the decoder, field by field. -/
theorem decodeAndEncodeAgree : Obligations.DecodeAndEncodeAgree :=
  ⟨fun i => ⟨wellFormed_all i, decodeCmd_encode i⟩, encode_decodeCmd⟩

/-- Settles O3 (R75): words that agree on the bits read decode alike, a cycle reads the decoded operation alone and no
output reads the command word; an assembled word is an encoded one. -/
theorem unreadBitsHaveNoEffect : Obligations.UnreadBitsHaveNoEffect := by
  constructor
  · intro s x xs w h
    refine ⟨?_, rfl, rfl, rfl, rfl⟩
    rw [step_driven_cons, step_driven_cons, cycleState_of_decodeCmd_eq (decodeCmd_eq_of_read_eq h)]
  · intro p l ws h w hw
    obtain ⟨i, rfl⟩ := exists_encode_of_mem_assembleLine h hw
    exact encode_and_readMask i

/-- Settles O4 (R78): each mnemonic stands for itself, its operand is checked against its range, and its word is
`(OP << 24) | operand`. -/
theorem assemblerEncodesOrRefuses : Obligations.AssemblerEncodesOrRefuses := by
  intro p
  refine ⟨assembleLine_of_core rfl, assembleLine_of_core rfl,
    fun n => assembleLine_of_range (i := .wait (.ofNat 24 n)) rfl ?_ ?_,
    fun n => assembleLine_of_range (i := .gap (.ofNat 8 n)) rfl ?_ ?_,
    fun n => assembleLine_of_range (i := .mark (.ofNat 8 n)) rfl ?_ ?_,
    fun n => assembleLine_of_range (i := .transmit (.ofNat 24 n)) rfl ?_ ?_,
    fun n => assembleLine_of_range (i := .decode (.ofNat 10 n)) rfl ?_ ?_,
    fun n => assembleLine_of_range (i := .dispatch (.ofNat 10 n)) rfl ?_ ?_⟩
  all_goals simp +contextual (disch := omega) [lineInstr, AsmLine.wellFormed, argument, Nat.mod_eq_of_lt]

/-- Settles O1 (R70, R72, R73). -/
theorem writtenOutWordsDecode : Obligations.WrittenOutWordsDecode := by
  unfold Obligations.WrittenOutWordsDecode
  decide

/-- Settles O5 (R79): neither the assembler nor the decode function reads an OPEN parameter, so the words and the levels
are those of one choice of them, computed; NOP's word is WAIT 0. -/
theorem pseudoInstructionWords : Obligations.PseudoInstructionWords := by
  rintro delay carrier clk p rfl
  simp only [assembleLine_defaultParams, decodeLevel_defaultParams]
  refine ⟨?_, exec_wait_zero, ?_, ?_, ?_, ?_, ?_, ?_, ?_, ?_, decodeLevel_defaultBase, ?_⟩ <;> decide

end Sys2Proof.Proofs
end

section
/-! The equations of R102, one for each case of a cycle and one for each segment's successor rule, and what a cycle does
not read of its inputs (R103, R104). -/

namespace Sys2Proof.Machine

/-! ### The cases of a cycle (R102) -/

theorem cycleState_of_rst {x : Inputs} (hrst : x.rst = true) (s : State) : cycleState x s = resetRegisters s := by
  simp [cycleState, hrst]

theorem cycleState_of_command {x : Inputs} {s : State} (hrst : x.rst = false) (hseg : s.seg = .idle)
    (hcmd : x.cmdValid = true) : cycleState x s = startState (decodeCmd x.cmd) s := by
  simp [cycleState, hrst, hseg, hcmd]

theorem cycleState_of_noCommand {x : Inputs} {s : State} (hrst : x.rst = false) (hseg : s.seg = .idle)
    (hcmd : x.cmdValid = false) : cycleState x s = s := by
  simp [cycleState, hrst, hseg, hcmd]

theorem cycleState_of_tick {x : Inputs} {s : State} (hrst : x.rst = false) (hseg : s.seg ≠ .idle)
    (htick : x.tick = true) : cycleState x s = countTick s := by
  simp [cycleState, hrst, hseg, htick]

theorem countTick_of_gt {s : State} (h : 1#24 < s.cnt) : countTick s = countDown s := if_pos h

theorem countTick_of_not_gt {s : State} (h : ¬ 1#24 < s.cnt) : countTick s = endSegment s := if_neg h

/-- With one tick left to count, the step at a tick event is the segment's successor rule. -/
theorem step_of_lastTick {s : State} (hrst : s.now.rst = false) (hseg : s.seg ≠ .idle) (htick : s.now.tick = true)
    (hcnt : s.cnt = 1#24) : step s = .next (endSegment s.advance) := by
  have hlast : ¬ 1#24 < s.advance.cnt := by simp [hcnt]
  rw [step_eq_cycleState, cycleState_of_tick (s := s.advance) hrst hseg htick, countTick_of_not_gt hlast]

/-! ### The successor rule of each segment (R80) -/

theorem endSegment_of_wait {s : State} (h : s.seg = .wait) : endSegment s = endWait s := by simp only [endSegment, h]
theorem endSegment_of_mark {s : State} (h : s.seg = .mark) : endSegment s = endMark s := by simp only [endSegment, h]
theorem endSegment_of_gap {s : State} (h : s.seg = .gap) : endSegment s = endGap s := by simp only [endSegment, h]
theorem endSegment_of_preMark {s : State} (h : s.seg = .preMark) : endSegment s = endPreMark s := by
  simp only [endSegment, h]
theorem endSegment_of_preGap {s : State} (h : s.seg = .preGap) : endSegment s = endPreGap s := by
  simp only [endSegment, h]
theorem endSegment_of_hdrMark {s : State} (h : s.seg = .hdrMark) : endSegment s = endHdrMark s := by
  simp only [endSegment, h]
theorem endSegment_of_bitGap {s : State} (h : s.seg = .bitGap) : endSegment s = endBitGap s := by
  simp only [endSegment, h]
theorem endSegment_of_bitMark {s : State} (h : s.seg = .bitMark) : endSegment s = endBitMark s := by
  simp only [endSegment, h]
theorem endSegment_of_delay {s : State} (h : s.seg = .delay) : endSegment s = endDelay s := by
  simp only [endSegment, h]

/-! ### What a cycle does not read -/

/-- Neither IDLE nor a cycle with `rst` = 1 reads `tick` (R103). -/
theorem cycleState_ignores_tick {x : Inputs} {s : State} (h : s.seg = .idle ∨ x.rst = true) (b : Bool) :
    cycleState { x with tick := b } s = cycleState x s := by
  rcases h with hseg | hrst
  · simp only [cycleState, hseg, if_true]
  · simp only [cycleState, hrst, if_true]

/-- A segment does not read the command port (R104). -/
theorem cycleState_ignores_command {s : State} (hseg : s.seg ≠ .idle) (x : Inputs) (v : Bool) (w : CmdWord) :
    cycleState { x with cmdValid := v, cmd := w } s = cycleState x s := by
  simp only [cycleState, hseg, if_false]

/-- What a step without reset does in a segment: a tick event takes 1 from CNT or ends the segment, and no other cycle
writes a register. -/
theorem step_cases_of_busy {s t : State} (hseg : s.seg ≠ .idle) (hrst : s.now.rst = false) (hst : step s = .next t) :
    (s.now.tick = false ∧ t = s.advance) ∨
    (s.now.tick = true ∧ 1#24 < s.cnt ∧ t = countDown s.advance) ∨
    (s.now.tick = true ∧ ¬ 1#24 < s.cnt ∧ SameRegisters (endSegment s) t) := by
  rcases step_cases hst with ⟨hr, -⟩ | ⟨-, hs, -⟩ | ⟨-, hs, -⟩ | ⟨-, -, htick, rfl⟩ | ⟨-, -, htick, rfl⟩
  · simp [hrst] at hr
  · exact absurd hs hseg
  · exact absurd hs hseg
  · rcases countTick_cases s.advance with ⟨hcnt, he⟩ | ⟨hcnt, he⟩
    · exact .inr (.inl ⟨htick, hcnt, he⟩)
    · refine .inr (.inr ⟨htick, hcnt, ?_⟩)
      rw [he, advance_eq_withEnv, endSegment_withEnv]
      exact sameRegisters_withEnv _ _ _
  · exact .inl ⟨htick, rfl⟩

end Sys2Proof.Machine
end

section
/-! Counting along a list of cycles (R107), and the cycles that a run can do without (R110). -/

namespace Sys2Proof.Machine

/-! ### Lists of cycles -/

theorem tickCount_append (xs ys : List Inputs) : tickCount (xs ++ ys) = tickCount xs + tickCount ys :=
  List.countP_append

theorem tickCount_singleton (x : Inputs) : tickCount [x] = if x.tick = true then 1 else 0 := List.countP_singleton

theorem afterCycles_concat (s : State) (xs : List Inputs) (x : Inputs) :
    afterCycles s (xs ++ [x]) = cycleState x (afterCycles s xs).nextCycle := afterCycles_append s xs [x]

theorem samplesAlong_concat (s : State) (xs : List Inputs) (x : Inputs) :
    samplesAlong s (xs ++ [x]) = samplesAlong s xs ++ (if x.tick then [(afterCycles s xs).ce] else []) := by
  simp [samplesAlong_append, samplesAlong]

theorem noReset_append {xs ys : List Inputs} : NoReset (xs ++ ys) ↔ NoReset xs ∧ NoReset ys :=
  List.forall_mem_append

theorem noReset_singleton {x : Inputs} : NoReset [x] ↔ x.rst = false := List.forall_mem_singleton

/-- Cycles that end with the n-th tick event are that cycle after cycles with n - 1 tick events. -/
theorem EndsAtTick.eq_concat {n : Nat} {xs : List Inputs} (h : EndsAtTick n xs) :
    ∃ ys x, xs = ys ++ [x] ∧ NoReset ys ∧ x.rst = false ∧ x.tick = true ∧ tickCount ys + 1 = n := by
  obtain ⟨x, hlast, htick⟩ := h.last
  obtain ⟨ys, rfl⟩ := List.getLast?_eq_some_iff.1 hlast
  obtain ⟨hys, hx⟩ := noReset_append.1 h.noReset
  refine ⟨ys, x, rfl, hys, noReset_singleton.1 hx, htick, ?_⟩
  rw [← h.ticks, tickCount_append, tickCount_singleton, if_pos htick]

/-! ### Counting down -/

/-- Counting n tick events takes n from CNT. -/
theorem iterate_countDown (n : Nat) (s : State) :
    countDown^[n] s = { s with cnt := s.cnt - BitVec.ofNat 24 n } := by
  induction n with
  | zero => simp
  | succ n ih => rw [Function.iterate_succ_apply', ih, countDown, BitVec.ofNat_add, ← BitVec.sub_sub]

@[simp] theorem iterate_countDown_seg (n : Nat) (s : State) : (countDown^[n] s).seg = s.seg := by
  rw [iterate_countDown]

@[simp] theorem iterate_countDown_ce (n : Nat) (s : State) : (countDown^[n] s).ce = s.ce := by
  rw [iterate_countDown]

theorem toNat_iterate_countDown_cnt {n : Nat} {s : State} (h : n ≤ s.cnt.toNat) :
    (countDown^[n] s).cnt.toNat = s.cnt.toNat - n := by
  rw [iterate_countDown]
  bv_omega

/-- The successor rule does not depend on how many tick events were counted before. -/
theorem endSegment_iterate_countDown (n : Nat) {s : State} (hseg : s.seg ≠ .idle) :
    endSegment (countDown^[n] s) = endSegment s := by
  induction n generalizing s with
  | zero => rfl
  | succ n ih => rw [Function.iterate_succ_apply, ih (by simpa using hseg), endSegment_countDown s hseg]

/-- A tick event that is not the last of a segment is counted. -/
theorem countTick_iterate_countDown {n : Nat} {s : State} (h : n + 1 < s.cnt.toNat) :
    countTick (countDown^[n] s) = countDown^[n + 1] s := by
  have hcnt := toNat_iterate_countDown_cnt (n := n) (s := s) (by omega)
  rw [countTick_of_gt (by bv_omega), Function.iterate_succ_apply']

/-- The last tick event of a segment ends it. -/
theorem countTick_iterate_countDown_last {n : Nat} {s : State} (hseg : s.seg ≠ .idle) (h : n + 1 = s.cnt.toNat) :
    countTick (countDown^[n] s) = endSegment s := by
  have hcnt := toNat_iterate_countDown_cnt (n := n) (s := s) (by omega)
  rw [countTick_of_not_gt (by bv_omega), endSegment_iterate_countDown n hseg]

/-- While fewer tick events have come than CNT has to count, a segment has counted exactly those and written nothing
else. -/
theorem afterCycles_of_counting {s : State} (hseg : s.seg ≠ .idle) (xs : List Inputs) (hrst : NoReset xs)
    (hcnt : tickCount xs < s.cnt.toNat) :
    afterCycles s xs = (countDown^[tickCount xs] s).withEnv s.inputs (s.cycle + xs.length) := by
  induction xs using List.reverseRecOn with
  | nil => rfl
  | append_singleton xs x ih =>
    obtain ⟨hxs, hx⟩ := noReset_append.1 hrst
    have hbusy : (countDown^[tickCount xs] s).seg ≠ .idle := by simpa using hseg
    rw [tickCount_append, tickCount_singleton] at hcnt ⊢
    rw [afterCycles_concat, ih hxs (by omega), nextCycle_eq_withEnv, cycleState_withEnv, cycleState_withEnv,
      List.length_append, ← Nat.add_assoc]
    cases htick : x.tick with
    | false => rw [cycleState_of_noTick hbusy (noReset_singleton.1 hx) htick]; rfl
    | true =>
      rw [htick, if_pos rfl] at hcnt
      rw [cycleState_of_tick (noReset_singleton.1 hx) hbusy htick, countTick_iterate_countDown hcnt]; rfl

/-- Each tick event that a segment counts samples the segment's CE. -/
theorem samplesAlong_of_counting {s : State} (hseg : s.seg ≠ .idle) (xs : List Inputs) (hrst : NoReset xs)
    (hcnt : tickCount xs < s.cnt.toNat) : samplesAlong s xs = List.replicate (tickCount xs) s.ce := by
  induction xs using List.reverseRecOn with
  | nil => rfl
  | append_singleton xs x ih =>
    rw [tickCount_append, tickCount_singleton] at hcnt ⊢
    obtain ⟨hxs, -⟩ := noReset_append.1 hrst
    rw [samplesAlong_concat, ih hxs (by omega), afterCycles_of_counting hseg xs hxs (by omega)]
    cases x.tick <;> simp [List.replicate_succ']

/-- At the n-th tick event of a segment of n ticks its successor rule ends it (R107). -/
theorem afterCycles_of_endsAtTick {s : State} {xs : List Inputs} (hseg : s.seg ≠ .idle)
    (h : EndsAtTick s.cnt.toNat xs) :
    afterCycles s xs = (endSegment s).withEnv s.inputs (s.cycle + xs.length) := by
  obtain ⟨ys, x, rfl, hys, hrst, htick, hn⟩ := h.eq_concat
  have hbusy : (countDown^[tickCount ys] s).seg ≠ .idle := by simpa using hseg
  rw [afterCycles_concat, afterCycles_of_counting hseg ys hys (by omega), nextCycle_eq_withEnv, cycleState_withEnv,
    cycleState_withEnv, cycleState_of_tick hrst hbusy htick, countTick_iterate_countDown_last hseg hn,
    List.length_append, ← Nat.add_assoc]
  rfl

/-- A segment of n ticks gives n samples, all its CE (R107). -/
theorem samplesAlong_of_endsAtTick {s : State} {xs : List Inputs} (hseg : s.seg ≠ .idle)
    (h : EndsAtTick s.cnt.toNat xs) : samplesAlong s xs = List.replicate s.cnt.toNat s.ce := by
  obtain ⟨ys, x, rfl, hys, -, htick, hn⟩ := h.eq_concat
  rw [samplesAlong_concat, samplesAlong_of_counting hseg ys hys (by omega),
    afterCycles_of_counting hseg ys hys (by omega), ← hn, List.replicate_succ']
  simp [htick]

/-- Before the n-th tick event fewer than n tick events have come. -/
theorem EndsAtTick.counting_take {n k : Nat} {xs : List Inputs} (h : EndsAtTick n xs) (hk : k < xs.length) :
    NoReset (xs.take k) ∧ tickCount (xs.take k) < n := by
  obtain ⟨ys, x, rfl, hys, -, -, hn⟩ := h.eq_concat
  have hle : k ≤ ys.length := by simpa [Nat.lt_succ_iff] using hk
  have hcount : tickCount (ys.take k) ≤ tickCount ys := (List.take_sublist k ys).countP_le
  rw [List.take_append_of_le_length hle]
  exact ⟨fun y hy => hys y (List.mem_of_mem_take hy), by omega⟩

/-! ### Cycles that can be left out -/

/-- A cycle that gives no tick sample and writes no register. -/
def SilentCycle (x : Inputs) (s : State) : Prop := x.tick = false ∧ cycleState x s.nextCycle = s.nextCycle

theorem silentCycle_of_undriven {x : Inputs} (hrst : x.rst = false) (htick : x.tick = false)
    (hcmd : x.cmdValid = false) (s : State) : SilentCycle x s := by
  refine ⟨htick, ?_⟩
  by_cases hseg : s.seg = .idle
  · exact cycleState_of_noCommand hrst hseg hcmd
  · exact cycleState_of_noTick hseg hrst htick

theorem silentCycle_of_busy {x : Inputs} {s : State} (hseg : s.seg ≠ .idle) (hrst : x.rst = false)
    (htick : x.tick = false) : SilentCycle x s :=
  ⟨htick, cycleState_of_noTick (s := s.nextCycle) hseg hrst htick⟩

/-- Every cycle of the run that `keep` does not keep is silent where it stands. -/
def SilentUnlessKept (keep : Inputs → Bool) (s : State) (xs : List Inputs) : Prop :=
  ∀ ys x zs, xs = ys ++ x :: zs → keep x = false → SilentCycle x (afterCycles s ys)

theorem SilentUnlessKept.of_concat {keep : Inputs → Bool} {s : State} {xs : List Inputs} {x : Inputs}
    (h : SilentUnlessKept keep s (xs ++ [x])) :
    SilentUnlessKept keep s xs ∧ (keep x = false → SilentCycle x (afterCycles s xs)) :=
  ⟨fun ys y zs hxs => h ys y (zs ++ [x]) (by simp [hxs]), h xs x [] rfl⟩

/-- Without the silent cycles a run ends in the same registers (R110). -/
theorem afterCycles_filter_of_silent {keep : Inputs → Bool} {s : State} (xs : List Inputs)
    (h : SilentUnlessKept keep s xs) :
    afterCycles s (xs.filter keep) = (afterCycles s xs).withEnv s.inputs (s.cycle + (xs.filter keep).length) := by
  induction xs using List.reverseRecOn with
  | nil => rfl
  | append_singleton xs x ih =>
    obtain ⟨hxs, hx⟩ := h.of_concat
    rw [afterCycles_concat]
    cases hkeep : keep x with
    | false =>
      have hfilter : (xs ++ [x]).filter keep = xs.filter keep := by simp [hkeep]
      rw [hfilter, ih hxs, (hx hkeep).2]
      rfl
    | true =>
      have hfilter : (xs ++ [x]).filter keep = xs.filter keep ++ [x] := by simp [hkeep]
      rw [hfilter, afterCycles_concat, ih hxs, nextCycle_eq_withEnv, nextCycle_eq_withEnv, cycleState_withEnv,
        cycleState_withEnv, cycleState_withEnv, List.length_append, ← Nat.add_assoc]
      rfl

/-- Without the silent cycles a run gives the same tick samples (R110). -/
theorem samplesAlong_filter_of_silent {keep : Inputs → Bool} {s : State} (xs : List Inputs)
    (h : SilentUnlessKept keep s xs) : samplesAlong s (xs.filter keep) = samplesAlong s xs := by
  induction xs using List.reverseRecOn with
  | nil => rfl
  | append_singleton xs x ih =>
    obtain ⟨hxs, hx⟩ := h.of_concat
    rw [List.filter_append, samplesAlong_append, ih hxs, afterCycles_filter_of_silent xs hxs, samplesAlong_concat]
    cases hkeep : keep x with
    | false => simp [hkeep, (hx hkeep).1, samplesAlong]
    | true => simp [hkeep, samplesAlong]

/-- R110 for the run of the machine. -/
theorem run_filter_of_silent {keep : Inputs → Bool} {s : State} {xs : List Inputs} (h : SilentUnlessKept keep s xs) :
    ∃ t u, core.run xs.length (s.driven xs) = .next t ∧
      core.run (xs.filter keep).length (s.driven (xs.filter keep)) = .next u ∧ SameRegisters t u ∧
      samples xs.length (s.driven xs) = samples (xs.filter keep).length (s.driven (xs.filter keep)) := by
  refine ⟨_, _, run_driven xs s, run_driven (xs.filter keep) s, ?_, ?_⟩
  · rw [afterCycles_filter_of_silent xs h]
    exact sameRegisters_withEnv _ _ _
  · rw [samples_driven, samples_driven, samplesAlong_filter_of_silent xs h]

end Sys2Proof.Machine
end

section
/-! The word of an operation as OP above its operand (R72). -/

namespace Sys2Proof.Laws

/-- R72's `(OP << 24) | operand`, on words. -/
theorem encode_eq_or (i : Instr) : encode i = (opcode i).setWidth 27 <<< 24 ||| (argument i).setWidth 27 := by
  apply BitVec.eq_of_getLsbD_eq
  intro k hk
  simp only [getLsbD_encode, BitVec.getLsbD_or, BitVec.getLsbD_shiftLeft, BitVec.getLsbD_setWidth, hk]
  by_cases hlow : k < 24
  · simp [hlow]
  · simp [hlow, show k - 24 < 27 by omega, BitVec.getLsbD_of_ge _ k (Nat.not_lt.1 hlow)]

end Sys2Proof.Laws
end

section
/-! The settled statements of 40_cycle_waiter.md. -/

namespace Sys2Proof.Proofs
open Sys2Proof.Machine Sys2Proof.Laws

/-- Settles O36 (R107): the segment counts every tick event before the n-th, and the n-th ends it; the successor rule
does not depend on the count. -/
theorem segmentCountsExactly : Obligations.SegmentCountsExactly := by
  rintro s n xs hseg rfl - h
  refine ⟨⟨_, run_driven xs s, ?_⟩, ?_, fun k hk => ?_⟩
  · rw [afterCycles_of_endsAtTick hseg h]
    exact sameRegisters_withEnv _ _ _
  · rw [samples_driven, samplesAlong_of_endsAtTick hseg h]
  · obtain ⟨hrst, hcnt⟩ := h.counting_take hk
    refine ⟨_, run_driven_take xs s hk.le, ?_⟩
    rw [afterCycles_of_counting hseg _ hrst hcnt]
    simp

/-- Settles O37 (R110): a cycle in which nothing is driven is silent in every state, a cycle without tick event and
reset is silent in a segment, and silent cycles can be left out. -/
theorem tickSpacingChangesNothing : Obligations.TickSpacingChangesNothing := by
  constructor
  · rintro s xs ys rfl
    apply run_filter_of_silent
    intro ys x zs _ hkeep
    obtain ⟨⟨hrst, htick⟩, hcmd⟩ : (x.rst = false ∧ x.tick = false) ∧ x.cmdValid = false := by simpa using hkeep
    exact silentCycle_of_undriven hrst htick hcmd _
  · rintro s xs ys hrst rfl hbusy
    apply run_filter_of_silent
    rintro ys x zs rfl htick
    have hseg := hbusy ys.length (by simp) _ (run_driven_append ys (x :: zs) s)
    exact silentCycle_of_busy hseg (hrst x (by simp)) htick

/-- Settles O13 (R104): a segment reads neither `cmd_valid` nor `cmd`, and a step without reset holds it, counts one
tick event or is its successor rule. -/
theorem busyBlockAcceptsNoCommand : Obligations.BusyBlockAcceptsNoCommand := by
  constructor
  · intro s x xs v w hseg
    refine ⟨cmdReady_of_busy hseg, ?_⟩
    rw [step_driven_cons, step_driven_cons, cycleState_ignores_command (s := s.nextCycle) hseg]
  · intro s t hseg hrst hst
    rcases step_cases_of_busy hseg hrst hst with ⟨-, rfl⟩ | ⟨-, -, rfl⟩ | hend
    · exact .inl ⟨rfl, rfl, rfl, rfl, rfl, rfl⟩
    · exact .inl ⟨rfl, rfl, rfl, rfl, rfl, rfl⟩
    · exact .inr hend

/-- Settles O35 (R111): the invariant is kept, so CNT = 0 stays a mark of IDLE; in a segment CNT is not 0, so a CNT that
is not above 1 is 1. -/
theorem counterNeverWraps : Obligations.CounterNeverWraps := by
  intro s t hinv hrst hst
  refine ⟨(inv_step hinv hst).idle_iff.symm, fun hseg => ?_⟩
  have hcnt : s.cnt ≠ 0#24 := fun h => hseg (hinv.idle_iff.2 h)
  rcases step_cases_of_busy hseg hrst hst with ⟨htick, rfl⟩ | ⟨htick, hgt, rfl⟩ | ⟨htick, hle, hend⟩
  · exact .inl ⟨htick, rfl, rfl⟩
  · refine .inr (.inl ⟨htick, by bv_omega, ?_, rfl⟩)
    simp only [countDown_cnt, State.advance_cnt]
    bv_omega
  · exact .inr (.inr ⟨htick, by bv_omega, hend⟩)

/-- Settles O6 (R102, R71): the acceptance cycle's case of the step function. -/
theorem stepRunsDecodedInstruction : Obligations.StepRunsDecodedInstruction := by
  intro s hrst hseg hcmd
  refine ⟨?_, sameRegisters_advance s, rfl, rfl⟩
  rw [step_eq_cycleState, cycleState_of_command (s := s.advance) hrst hseg hcmd, exec_eq_startState]

/-- Settles O7 (R102, R80): one equation of `cycleState` or `countTick` for each case, one of `endSegment` for each
segment. -/
theorem cycleDoesExactlyOneCase : Obligations.CycleDoesExactlyOneCase := by
  refine ⟨fun s tick cmdValid cmd => ?_, fun s tick cmd hseg => ?_, fun s tick cmd hseg => ?_,
    fun s cmdValid cmd hseg hgt => ?_, fun s cmdValid cmd hseg hle => ?_, fun s cmdValid cmd hseg => ?_,
    fun s => ⟨endSegment_of_wait, endSegment_of_mark, endSegment_of_gap, endSegment_of_preMark, endSegment_of_preGap,
      endSegment_of_hdrMark, endSegment_of_bitGap, endSegment_of_bitMark, endSegment_of_delay⟩⟩ <;>
    rw [step_driven_cons]
  · rw [cycleState_of_rst rfl]; rfl
  · rw [cycleState_of_command (s := s.nextCycle) rfl hseg rfl, exec_eq_startState]; rfl
  · rw [cycleState_of_noCommand (s := s.nextCycle) rfl hseg rfl]; rfl
  · rw [cycleState_of_tick (s := s.nextCycle) rfl hseg rfl, countTick_of_gt (s := s.nextCycle) hgt]; rfl
  · rw [cycleState_of_tick (s := s.nextCycle) rfl hseg rfl, countTick_of_not_gt (s := s.nextCycle) hle]; rfl
  · rw [cycleState_of_noTick (s := s.nextCycle) hseg rfl rfl]; rfl

/-- Settles O12 (R103): IDLE and reset do not read `tick`, and IDLE without a command writes no register. -/
theorem tickInIdleIsNotCounted : Obligations.TickInIdleIsNotCounted := by
  intro s x xs h
  refine ⟨?_, fun hrst hcmd => ⟨_, step_driven_cons _ xs s, ?_⟩⟩
  · have hsame (b : Bool) : cycleState { x with tick := b } s.nextCycle = cycleState x s.nextCycle :=
      cycleState_ignores_tick (s := s.nextCycle) h b
    rw [step_driven_cons, step_driven_cons, hsame true, hsame false]
  · have hseg : s.nextCycle.seg = .idle := h.resolve_right (by simp [hrst])
    rw [cycleState_ignores_tick (.inl hseg), cycleState_of_noCommand hrst hseg hcmd]
    exact sameRegisters_withEnv _ _ s

/-- Settles O19 (R105): the two branches of WAIT's start action, and its word as OP above N. -/
theorem waitStartsItsCount : Obligations.WaitStartsItsCount := by
  intro s n
  refine ⟨by simp [encode_eq_or, opcode, argument], fun hn => ?_, fun hn => ?_⟩
  · rw [exec_eq_startState, startState, if_pos hn]
  · rw [exec_eq_startState, startState, if_neg hn]
    rfl

/-- Settles O25 (R106, R132, R133, R173): the step at the last tick event is the successor rule of the segment. -/
theorem standaloneSegmentsEnd : Obligations.StandaloneSegmentsEnd := by
  intro s hrst htick hcnt
  have hlast (hseg : s.seg ≠ .idle) : step s = .next (endSegment s.advance) := step_of_lastTick hrst hseg htick hcnt
  refine ⟨fun h => ?_, fun h => ?_, fun h => ?_, fun h => ?_⟩ <;> rw [hlast (by simp [h])]
  · rw [endSegment_of_wait (s := s.advance) h]; rfl
  · rw [endSegment_of_mark (s := s.advance) h]; rfl
  · rw [endSegment_of_gap (s := s.advance) h]; rfl
  · rw [endSegment_of_delay (s := s.advance) h]; rfl

end Sys2Proof.Proofs
end

section
/-! The words of the carrier gate: OP alone selects ENABLE and DISABLE (R76). -/

namespace Sys2Proof.Laws

theorem decodeCmd_of_opField_zero {w : CmdWord} (h : opField w = 0#3) : decodeCmd w = .disable := by
  simp [decodeCmd, h]

theorem decodeCmd_of_opField_one {w : CmdWord} (h : opField w = 1#3) : decodeCmd w = .enable := by
  simp [decodeCmd, h]

end Sys2Proof.Laws
end

section
/-! Who writes CE, and the value each writer gives it (R125). -/

namespace Sys2Proof.Machine

/-- Writing CE with the value it has changes nothing: ENABLE and DISABLE are idempotent (R120, R121). -/
theorem setCarrier_of_ce_eq {b : Bool} {s : State} (h : s.ce = b) : setCarrier b s = s := by
  subst h
  rfl

/-! ### The start actions -/

theorem startState_gap_ce (d : Duration) (s : State) : (startState (.gap d) s).ce = false := by
  by_cases hd : d = 0#8 <;> simp [startState, hd]

theorem startState_mark_ce (d : Duration) (s : State) : (startState (.mark d) s).ce = true ↔ d ≠ 0#8 := by
  by_cases hd : d = 0#8 <;> simp [startState, hd]

theorem startState_dispatch_some_ce {s : State} {l : Level} {b : Button} (hl : decodeLevel s.cfg.toParams l = some b) :
    (startState (.dispatch l) s).ce = true := by
  simp [startState, hl, dispatchButton]

/-- A start action that changes CE is that of ENABLE, DISABLE, MARK, GAP, TRANSMIT, or DISPATCH with a button: WAIT,
DECODE and DISPATCH without a button keep CE. -/
theorem startState_ce_cases {i : Instr} {s : State} (hne : (startState i s).ce ≠ s.ce) :
    (i = .enable ∧ (startState i s).ce = true) ∨
    (i = .disable ∧ (startState i s).ce = false) ∨
    (∃ d, i = .mark d ∧ ((startState i s).ce = true ↔ d ≠ 0#8)) ∨
    (∃ d, i = .gap d ∧ (startState i s).ce = false) ∨
    (∃ x, i = .transmit x ∧ (startState i s).ce = true) ∨
    (∃ l b, i = .dispatch l ∧ decodeLevel s.cfg.toParams l = some b ∧ (startState i s).ce = true) := by
  cases i with
  | enable => exact .inl ⟨rfl, rfl⟩
  | disable => exact .inr (.inl ⟨rfl, rfl⟩)
  | mark d => exact .inr (.inr (.inl ⟨d, rfl, startState_mark_ce d s⟩))
  | gap d => exact .inr (.inr (.inr (.inl ⟨d, rfl, startState_gap_ce d s⟩)))
  | transmit x => exact .inr (.inr (.inr (.inr (.inl ⟨x, rfl, rfl⟩))))
  | wait n => exact absurd (startState_wait_ce n s) hne
  | decode l => exact absurd rfl hne
  | dispatch l =>
    cases hl : decodeLevel s.cfg.toParams l with
    | none => exact absurd (startState_dispatch_none_ce hl) hne
    | some b => exact .inr (.inr (.inr (.inr (.inr ⟨l, b, rfl, hl, startState_dispatch_some_ce hl⟩))))

/-! ### The segment ends -/

/-- Inside a frame the end of a segment turns the carrier on exactly where a mark begins. -/
theorem endSegment_ce_iff_of_inFrame {s : State} (hframe : inFrame s.seg = true) :
    (endSegment s).ce = true ↔ (endSegment s).seg = .hdrMark ∨ (endSegment s).seg = .bitMark := by
  rcases (inFrame_iff s.seg).1 hframe with h | h | h | h | h
  · simp [endSegment_of_preMark h, endPreMark]
  · simp [endSegment_of_preGap h, endPreGap]
  · simp [endSegment_of_hdrMark h, endHdrMark]
  · simp [endSegment_of_bitGap h, endBitGap]
  · rw [endSegment_of_bitMark h]
    rcases endBitMark_cases s with ⟨-, he⟩ | ⟨-, -, he⟩ | ⟨-, -, he⟩ <;> simp [he, delayAfterFrame]

/-- A segment end that changes CE is that of MARK, or it stands inside a frame: WAIT, GAP and DELAY end with CE kept. -/
theorem endSegment_ce_cases {s : State} (hne : (endSegment s).ce ≠ s.ce) :
    (s.seg = .mark ∧ (endSegment s).ce = false) ∨
    (inFrame s.seg = true ∧
      ((endSegment s).ce = true ↔ (endSegment s).seg = .hdrMark ∨ (endSegment s).seg = .bitMark)) := by
  cases hs : s.seg with
  | mark => exact .inl ⟨rfl, by rw [endSegment_of_mark hs]; rfl⟩
  | preMark | preGap | hdrMark | bitGap | bitMark =>
    exact .inr ⟨rfl, endSegment_ce_iff_of_inFrame (by rw [hs]; rfl)⟩
  | idle | wait | gap | delay => exact absurd (by simp [endSegment, hs, endWait, endGap, endDelay]) hne

end Sys2Proof.Machine
end

section
/-! The settled statements of 41_carrier_gate.md. -/

namespace Sys2Proof.Proofs
open Sys2Proof.Machine Sys2Proof.Laws

/-- Settles O32 (R125): of the cases of a step, reset gives CE = 0, an accepted command and a segment's end write CE as
their own lists say, and counting down or a cycle in which nothing happens keeps CE. -/
theorem onlyListedWritersChangeCarrier : Obligations.OnlyListedWritersChangeCarrier := by
  intro s t hst hne
  rcases step_cases hst with ⟨hrst, rfl⟩ | ⟨hrst, hseg, hcmd, rfl⟩ | ⟨-, -, -, rfl⟩ | ⟨hrst, -, htick, rfl⟩ |
    ⟨-, -, -, rfl⟩
  · exact .inl ⟨hrst, rfl⟩
  · exact .inr (.inl ⟨hrst, hseg, hcmd, startState_ce_cases hne⟩)
  · exact absurd rfl hne
  · rcases countTick_cases s.advance with ⟨-, he⟩ | ⟨hlast, he⟩
    · exact absurd (congrArg State.ce he) hne
    · rw [he] at hne ⊢
      exact .inr (.inr ⟨hrst, htick, hlast, endSegment_ce_cases hne⟩)
  · exact absurd rfl hne

/-- Settles O17 (R121): the start action is `CE <- 0`, which with CE = 0 changes nothing. -/
theorem disableTurnsCarrierOff : Obligations.DisableTurnsCarrierOff :=
  ⟨by decide, fun _ => decodeCmd_of_opField_zero, exec_eq_startState .disable,
    fun s h => (exec_eq_startState .disable s).trans (congrArg _ (setCarrier_of_ce_eq h)),
    fun _ t _ => ⟨_, exec_eq_startState .disable t, rfl⟩⟩

/-- Settles O18 (R120): the start action is `CE <- 1`, which with CE = 1 changes nothing. -/
theorem enableTurnsCarrierOn : Obligations.EnableTurnsCarrierOn :=
  ⟨by decide, fun _ => decodeCmd_of_opField_one, exec_eq_startState .enable,
    fun s h => (exec_eq_startState .enable s).trans (congrArg _ (setCarrier_of_ce_eq h))⟩

end Sys2Proof.Proofs
end

section
/-! What an accepted command that starts a segment gives, up to the end of that segment (R102, R107). -/

namespace Sys2Proof.Machine

variable {s u : State} {x : Inputs} {xs : List Inputs}

/-- The acceptance cycle is the start action; only the environment moves besides. -/
theorem cycleState_nextCycle_of_command (hseg : s.seg = .idle) (hrst : x.rst = false) (hcmd : x.cmdValid = true)
    (hu : startState (decodeCmd x.cmd) s = u) : cycleState x s.nextCycle = u.withEnv s.inputs (s.cycle + 1) := by
  rw [cycleState_of_command (s := s.nextCycle) hrst hseg hcmd, nextCycle_eq_withEnv, startState_withEnv, hu]

/-- The cycles after the acceptance cycle count the segment it begins, and the last of them ends it. -/
theorem afterCycles_of_startedSegment (hseg : s.seg = .idle) (hrst : x.rst = false) (hcmd : x.cmdValid = true)
    (hu : startState (decodeCmd x.cmd) s = u) (hbusy : u.seg ≠ .idle) (h : EndsAtTick u.cnt.toNat xs) :
    SameRegisters (endSegment u) (afterCycles s (x :: xs)) := by
  rw [afterCycles_cons, cycleState_nextCycle_of_command hseg hrst hcmd hu,
    afterCycles_of_endsAtTick (s := u.withEnv s.inputs (s.cycle + 1)) hbusy h, endSegment_withEnv]
  exact sameRegisters_withEnv _ _ _

/-- The acceptance cycle samples CE as it was before it, if it is a tick event (log 12); the segment gives its own
samples. -/
theorem samplesAlong_of_startedSegment (hseg : s.seg = .idle) (hrst : x.rst = false) (hcmd : x.cmdValid = true)
    (hu : startState (decodeCmd x.cmd) s = u) (hbusy : u.seg ≠ .idle) (h : EndsAtTick u.cnt.toNat xs) :
    samplesAlong s (x :: xs) = (if x.tick = true then [s.ce] else []) ++ List.replicate u.cnt.toNat u.ce := by
  rw [samplesAlong, cycleState_nextCycle_of_command hseg hrst hcmd hu,
    samplesAlong_of_endsAtTick (s := u.withEnv s.inputs (s.cycle + 1)) hbusy h]
  rfl

end Sys2Proof.Machine
end

section
/-! The two pulse primitives as one (R130, R131): MARK and GAP differ in the level of CE and in the name of the
segment. -/

namespace Sys2Proof.Machine

/-- The segment of a pulse of the given level. -/
def pulseSeg (level : Bool) : Seg := if level then .mark else .gap

/-- The start of a pulse of the given level and of `d` ticks. -/
def startPulse (level : Bool) (d : Duration) (s : State) : State :=
  setCarrier level (enterSegment (pulseSeg level) (ticksOfDuration d) s)

theorem pulseSeg_ne_idle (level : Bool) : pulseSeg level ≠ .idle := by cases level <;> decide

theorem startState_mark_zero (s : State) : startState (.mark 0#8) s = setCarrier false s := rfl

theorem startState_gap_zero (s : State) : startState (.gap 0#8) s = setCarrier false s := rfl

theorem startState_mark_of_ne_zero {d : Duration} (hd : d ≠ 0#8) (s : State) :
    startState (.mark d) s = startPulse true d s := if_neg hd

theorem startState_gap_of_ne_zero {d : Duration} (hd : d ≠ 0#8) (s : State) :
    startState (.gap d) s = startPulse false d s := if_neg hd

/-- A pulse of either level ends in IDLE with the carrier off and nothing else changed (R132, R133). -/
theorem endSegment_startPulse (level : Bool) (d : Duration) (s : State) :
    endSegment (startPulse level d s) = setCarrier false (goIdle s) := by
  cases level with
  | true => exact endSegment_of_mark rfl
  | false => exact endSegment_of_gap rfl

end Sys2Proof.Machine
end

section
/-! The settled statements of 42_pulse_primitives.md. -/

namespace Sys2Proof.Proofs
open Sys2Proof.Machine Sys2Proof.Laws

/-- Settles O38 (R134): the accepted command starts a pulse, whose segment gives D samples of its level and then ends in
IDLE with the carrier off. -/
theorem markAndGapAreExact : Obligations.MarkAndGapAreExact := by
  intro s x xs d level hseg hrst hcmd hdec hd hticks
  have hstart : startState (decodeCmd x.cmd) s = startPulse level d s := by
    rw [hdec]
    cases level with
    | true => exact startState_mark_of_ne_zero hd s
    | false => exact startState_gap_of_ne_zero hd s
  have hbusy : (startPulse level d s).seg ≠ .idle := pulseSeg_ne_idle level
  have hcnt : (startPulse level d s).cnt.toNat = d.toNat := ticksOfDuration_toNat d
  rw [← hcnt] at hticks ⊢
  constructor
  · have hregs := afterCycles_of_startedSegment hseg hrst hcmd hstart hbusy hticks
    rw [endSegment_startPulse] at hregs
    obtain ⟨hce, hidle, hzero, hf, hi, hdly, hbtn⟩ := hregs
    exact ⟨_, run_driven (x :: xs) s, hidle, hzero, hce, hf, hi, hdly, hbtn⟩
  · exact (samples_driven (x :: xs) s).trans
      (samplesAlong_of_startedSegment hseg hrst hcmd hstart hbusy hticks)

/-- Settles O20 (R130): MARK 0 is `CE <- 0`, any other MARK the start of a pulse of level 1. -/
theorem markStartsItsPulse : Obligations.MarkStartsItsPulse := by
  intro s d
  refine ⟨by simp [encode_eq_or, opcode, argument], ?_, fun hd => ?_⟩
  · rintro rfl
    exact (exec_eq_startState (.mark 0#8) s).trans (congrArg _ (startState_mark_zero s))
  · exact (exec_eq_startState (.mark d) s).trans (congrArg _ (startState_mark_of_ne_zero hd s))

/-- Settles O21 (R131): GAP 0 is `CE <- 0`, any other GAP the start of a pulse of level 0. -/
theorem gapStartsItsInterval : Obligations.GapStartsItsInterval := by
  intro s d
  refine ⟨by simp [encode_eq_or, opcode, argument], ?_, fun hd => ?_⟩
  · rintro rfl
    exact (exec_eq_startState (.gap 0#8) s).trans (congrArg _ (startState_gap_zero s))
  · exact (exec_eq_startState (.gap d) s).trans (congrArg _ (startState_gap_of_ne_zero hd s))

end Sys2Proof.Proofs
end

section
/-! Ticks, samples and levels of pulse sequences, and the number of 1 bits of a frame (R149, R150, R151). -/

namespace Sys2Proof.Machine

/-! ### Sequences of pulses -/

@[simp] theorem ticksOf_nil : ticksOf [] = 0 := rfl

@[simp] theorem ticksOf_cons (r : Pulse) (ps : List Pulse) : ticksOf (r :: ps) = r.2 + ticksOf ps := by
  simp [ticksOf]

theorem ticksOf_append (ps qs : List Pulse) : ticksOf (ps ++ qs) = ticksOf ps + ticksOf qs := by
  simp [ticksOf]

@[simp] theorem samplesOf_nil : samplesOf [] = [] := rfl

@[simp] theorem samplesOf_cons (r : Pulse) (ps : List Pulse) :
    samplesOf (r :: ps) = List.replicate r.2 r.1 ++ samplesOf ps := by
  simp [samplesOf]

/-- The samples of a frame's pulses, written out as in R149. -/
theorem samplesOf_framePulses (p : Params) (f : Frame) :
    samplesOf (framePulses p f) =
      List.replicate p.tPreMark.toNat true ++ List.replicate p.tPreGap.toNat false ++
      List.replicate p.tBitMark.toNat true ++
      (List.range 48).flatMap (fun k =>
        List.replicate (gapLen p (f.getLsbD k)).toNat false ++ List.replicate p.tBitMark.toNat true) := by
  simp [samplesOf, framePulses, cellPulses, List.flatMap_assoc]

/-- A bit cell has one mark and one gap. -/
theorem countP_cellPulses (p : Params) (b : Bool) :
    (cellPulses p b).countP (fun r => r.1) = 1 ∧ (cellPulses p b).countP (fun r => !r.1) = 1 := by
  simp [cellPulses]

theorem gapLen_true (p : Params) : gapLen p true = p.tOneGap := rfl

theorem gapLen_false (p : Params) : gapLen p false = p.tZeroGap := rfl

theorem ticksOf_cellPulses (p : Params) (b : Bool) :
    ticksOf (cellPulses p b) = (gapLen p b).toNat + p.tBitMark.toNat := rfl

/-- The ticks of a list of bit cells: a bit-mark for each, and for each the gap of its bit. -/
theorem ticksOf_cells (p : Params) (bit : Nat → Bool) (ks : List Nat) :
    ticksOf (ks.flatMap (fun k => cellPulses p (bit k))) =
      ks.length * p.tBitMark.toNat + ks.countP bit * p.tOneGap.toNat +
        (ks.length - ks.countP bit) * p.tZeroGap.toNat := by
  induction ks with
  | nil => simp
  | cons k ks ih =>
    have hle : ks.countP bit ≤ ks.length := List.countP_le_length
    rw [List.flatMap_cons, ticksOf_append, ticksOf_cellPulses, ih, List.length_cons]
    cases hk : bit k with
    | true =>
      have hsub : ks.length + 1 - (ks.countP bit + 1) = ks.length - ks.countP bit := by omega
      rw [List.countP_cons_of_pos hk, hsub, gapLen_true]
      ring
    | false =>
      have hsub : ks.length + 1 - ks.countP bit = ks.length - ks.countP bit + 1 := by omega
      rw [List.countP_cons_of_neg (by simp [hk]), hsub, gapLen_false]
      ring

/-- The ticks of a frame's pulses are the formula of R151. -/
theorem ticksOf_framePulses (p : Params) (f : Frame) : ticksOf (framePulses p f) = frameTicks p f := by
  have hcells := ticksOf_cells p (fun k => f.getLsbD k) (List.range 48)
  rw [List.length_range] at hcells
  rw [framePulses, ticksOf_append, hcells, frameTicks, popcount]
  simp only [ticksOf_cons, ticksOf_nil]
  omega

/-! ### The number of 1 bits -/

theorem popcount_le {w : Nat} (v : BitVec w) : popcount v ≤ w :=
  List.countP_le_length.trans_eq List.length_range

theorem popcount_append {m n : Nat} (x : BitVec m) (y : BitVec n) : popcount (x ++ y) = popcount x + popcount y := by
  have hlow : (List.range n).countP (fun k => (x ++ y).getLsbD k) = popcount y := by
    refine List.countP_congr fun k hk => ?_
    simp [BitVec.getLsbD_append, List.mem_range.1 hk]
  have hhigh : (List.range m).countP ((fun k => (x ++ y).getLsbD k) ∘ (n + ·)) = popcount x := by
    refine List.countP_congr fun k _ => ?_
    simp [BitVec.getLsbD_append]
  have hrange : List.range (m + n) = List.range n ++ (List.range m).map (n + ·) := by
    rw [Nat.add_comm, List.range_add]
  rw [popcount, hrange, List.countP_append, List.countP_map, hlow, hhigh, Nat.add_comm]

/-- The 1 bits of a frame are those of the device address and of the payload. -/
theorem popcount_assembleFrame (p : Params) (x : Payload) :
    popcount (assembleFrame p x) = popcount p.addr + popcount x :=
  (popcount_append x p.addr).trans (Nat.add_comm _ _)

/-! ### The default parameters -/

theorem frameTicks_defaultParams (delay : Fin 16777215) (carrier clk : Nat) (f : Frame) :
    frameTicks (Config.defaultParams delay carrier clk) f = 1801 + 35 * popcount f := by
  have hle := popcount_le f
  simp only [frameTicks, Config.defaultParams, BitVec.reduceToNat]
  omega

theorem popcount_defaultAddr (delay : Fin 16777215) (carrier clk : Nat) :
    popcount (Config.defaultParams delay carrier clk).addr = 3 := by
  simp only [Config.defaultParams]
  decide

end Sys2Proof.Machine
end

section
/-! Several segments in a row along a list of cycles: each is counted exactly (R107), and their pulses follow one
another without a cycle between. -/

namespace Sys2Proof.Machine

/-! ### The environment of a run -/

theorem cycleState_nextCycle_withEnv (x : Inputs) (ys : List Inputs) (n : Nat) (s : State) :
    cycleState x (s.withEnv ys n).nextCycle = (cycleState x s.nextCycle).withEnv ys (n + 1) :=
  cycleState_withEnv x ys (n + 1) s.nextCycle

/-- A run does not look at the environment of its first state. -/
theorem afterCycles_withEnv (ys : List Inputs) (n : Nat) (s : State) (xs : List Inputs) :
    afterCycles (s.withEnv ys n) xs = (afterCycles s xs).withEnv ys (n + xs.length) := by
  induction xs generalizing n s with
  | nil => rfl
  | cons x xs ih =>
    rw [afterCycles_cons, cycleState_nextCycle_withEnv, ih, afterCycles_cons, List.length_cons, Nat.add_assoc,
      Nat.add_comm 1]

theorem samplesAlong_withEnv (ys : List Inputs) (n : Nat) (s : State) (xs : List Inputs) :
    samplesAlong (s.withEnv ys n) xs = samplesAlong s xs := by
  induction xs generalizing n s with
  | nil => rfl
  | cons x xs ih =>
    rw [samplesAlong, cycleState_nextCycle_withEnv, ih, samplesAlong, State.withEnv_ce]

/-! ### Cutting a list of cycles at a tick event -/

theorem EndsAtTick.pos {n : Nat} {xs : List Inputs} (h : EndsAtTick n xs) : 1 ≤ n := by
  obtain ⟨ys, x, -, -, -, -, hn⟩ := h.eq_concat
  omega

/-- Cycles in which m tick events come begin with cycles that end with the m-th. -/
theorem exists_append_endsAtTick {m : Nat} (hm : 1 ≤ m) (xs : List Inputs) (hrst : NoReset xs)
    (hcount : m ≤ tickCount xs) : ∃ ys zs, xs = ys ++ zs ∧ EndsAtTick m ys := by
  induction xs using List.reverseRecOn with
  | nil => exact absurd (hm.trans hcount) (by decide)
  | append_singleton xs x ih =>
    by_cases hle : m ≤ tickCount xs
    · obtain ⟨ys, zs, rfl, hys⟩ := ih (noReset_append.1 hrst).1 hle
      exact ⟨ys, zs ++ [x], List.append_assoc ys zs [x], hys⟩
    · rw [tickCount_append, tickCount_singleton] at hcount
      have htick : x.tick = true := by
        by_contra h
        rw [if_neg h] at hcount
        exact hle hcount
      have hm : tickCount (xs ++ [x]) = m := by
        rw [if_pos htick] at hcount
        rw [tickCount_append, tickCount_singleton, if_pos htick]
        omega
      exact ⟨xs ++ [x], [], (List.append_nil _).symm, hrst, hm, x, List.getLast?_concat, htick⟩

/-- Cycles that end with tick event m + n are cycles that end with the m-th, and cycles that end with the n-th after
it. -/
theorem EndsAtTick.split {m n : Nat} {xs : List Inputs} (h : EndsAtTick (m + n) xs) (hm : 1 ≤ m) (hn : 1 ≤ n) :
    ∃ ys zs, xs = ys ++ zs ∧ EndsAtTick m ys ∧ EndsAtTick n zs := by
  obtain ⟨ys, zs, rfl, hys⟩ := exists_append_endsAtTick hm xs h.noReset (by rw [h.ticks]; omega)
  have hzs : tickCount zs = n := by
    have hsum := h.ticks
    rw [tickCount_append, hys.ticks] at hsum
    omega
  have hne : zs ≠ [] := by
    rintro rfl
    exact absurd (hzs ▸ hn) (by decide)
  obtain ⟨x, hx, htick⟩ := h.last
  rw [List.getLast?_append_of_ne_nil _ hne] at hx
  exact ⟨ys, zs, rfl, hys, (noReset_append.1 h.noReset).2, hzs, x, hx, htick⟩

/-- Before the last tick event of a segment the segment is current. -/
theorem afterCycles_take_seg {s : State} {xs : List Inputs} (hseg : s.seg ≠ .idle) (h : EndsAtTick s.cnt.toNat xs)
    {k : Nat} (hk : k < xs.length) : (afterCycles s (xs.take k)).seg = s.seg := by
  obtain ⟨hrst, hcnt⟩ := h.counting_take hk
  rw [afterCycles_of_counting hseg _ hrst hcnt, State.withEnv_seg, iterate_countDown_seg]

/-! ### Segments in a row -/

/-- Segments of `P` follow one another from `s` until `t` is entered, each with ticks to count; the pulses are their
levels and lengths. -/
inductive Plays (P : Seg → Prop) : State → List Pulse → State → Prop
  | nil (s : State) : Plays P s [] s
  | cons {s t : State} {ps : List Pulse} (hseg : P s.seg) (hcnt : s.cnt ≠ 0#24) (hps : Plays P (endSegment s) ps t) :
      Plays P s ((s.ce, s.cnt.toNat) :: ps) t

/-- One segment in front, whose count is a duration of R7. -/
theorem Plays.segment {P : Seg → Prop} {s t : State} {ps : List Pulse} {d : Duration} (hseg : P s.seg)
    (hcnt : s.cnt = ticksOfDuration d) (hd : d ≠ 0#8) (hps : Plays P (endSegment s) ps t) :
    Plays P s ((s.ce, d.toNat) :: ps) t := by
  have hlen : s.cnt.toNat = d.toNat := by rw [hcnt, ticksOfDuration_toNat]
  rw [← hlen]
  exact .cons hseg (by rwa [hcnt, Ne, ticksOfDuration_eq_zero]) hps

theorem Plays.append {P : Seg → Prop} {s t u : State} {ps qs : List Pulse} (h : Plays P s ps t) (k : Plays P t qs u) :
    Plays P s (ps ++ qs) u := by
  induction h with
  | nil => exact k
  | cons hseg hcnt _ ih => exact .cons hseg hcnt (ih k)

/-- Cycles that end with the last tick event of segments in a row are those of the first segment alone, or those of the
first and then those of the others. -/
theorem Plays.cut {P : Seg → Prop} {s t : State} {ps : List Pulse} {xs : List Inputs} (hcnt : s.cnt ≠ 0#24)
    (hps : Plays P (endSegment s) ps t) (h : EndsAtTick (s.cnt.toNat + ticksOf ps) xs) :
    (ps = [] ∧ endSegment s = t ∧ EndsAtTick s.cnt.toNat xs) ∨
    ∃ ys zs, xs = ys ++ zs ∧ EndsAtTick s.cnt.toNat ys ∧ EndsAtTick (ticksOf ps) zs := by
  have hpos {u : State} (hu : u.cnt ≠ 0#24) : 1 ≤ u.cnt.toNat := by bv_omega
  cases hps with
  | nil => exact .inl ⟨rfl, rfl, h⟩
  | cons _ hnext _ =>
    exact .inr (h.split (hpos hcnt) ((hpos hnext).trans (by simp)))

section
variable {P : Seg → Prop} (hP : ∀ g, P g → g ≠ .idle)
include hP

/-- Segments in a row end at the last tick event of the last, in the state it is followed by. -/
theorem Plays.afterCycles_eq {s t : State} {ps : List Pulse} {xs : List Inputs} (hps : Plays P s ps t)
    (h : EndsAtTick (ticksOf ps) xs) : afterCycles s xs = t.withEnv s.inputs (s.cycle + xs.length) := by
  induction hps generalizing xs with
  | nil => exact absurd h.pos (by simp)
  | cons hseg hcnt hps ih =>
    rw [ticksOf_cons] at h
    rcases hps.cut hcnt h with ⟨rfl, rfl, hxs⟩ | ⟨ys, zs, rfl, hys, hzs⟩
    · exact afterCycles_of_endsAtTick (hP _ hseg) hxs
    · rw [afterCycles_append, afterCycles_of_endsAtTick (hP _ hseg) hys, afterCycles_withEnv, ih hzs,
        List.length_append, ← Nat.add_assoc]
      rfl

/-- Their tick samples are their pulses. -/
theorem Plays.samplesAlong_eq {s t : State} {ps : List Pulse} {xs : List Inputs} (hps : Plays P s ps t)
    (h : EndsAtTick (ticksOf ps) xs) : samplesAlong s xs = samplesOf ps := by
  induction hps generalizing xs with
  | nil => exact absurd h.pos (by simp)
  | cons hseg hcnt hps ih =>
    rw [ticksOf_cons] at h
    rcases hps.cut hcnt h with ⟨rfl, -, hxs⟩ | ⟨ys, zs, rfl, hys, hzs⟩
    · rw [samplesAlong_of_endsAtTick (hP _ hseg) hxs, samplesOf_cons, samplesOf_nil, List.append_nil]
    · rw [samplesAlong_append, samplesAlong_of_endsAtTick (hP _ hseg) hys,
        afterCycles_of_endsAtTick (hP _ hseg) hys, samplesAlong_withEnv, ih hzs, samplesOf_cons]

/-- Before the last tick event of segments in a row, one of them is current. -/
theorem Plays.seg_of_take {s t : State} {ps : List Pulse} {xs : List Inputs} (hps : Plays P s ps t)
    (h : EndsAtTick (ticksOf ps) xs) {k : Nat} (hk : k < xs.length) : P (afterCycles s (xs.take k)).seg := by
  induction hps generalizing xs k with
  | nil => exact absurd h.pos (by simp)
  | cons hseg hcnt hps ih =>
    rw [ticksOf_cons] at h
    rcases hps.cut hcnt h with ⟨rfl, -, hxs⟩ | ⟨ys, zs, rfl, hys, hzs⟩
    · rwa [afterCycles_take_seg (hP _ hseg) hxs hk]
    · rw [List.length_append] at hk
      rcases Nat.lt_or_ge k ys.length with hlt | hge
      · rw [List.take_append_of_le_length hlt.le]
        rwa [afterCycles_take_seg (hP _ hseg) hys hlt]
      · rw [List.take_append, List.take_of_length_le hge, afterCycles_append,
          afterCycles_of_endsAtTick (hP _ hseg) hys, afterCycles_withEnv, State.withEnv_seg]
        exact ih hzs (by omega)

end

end Sys2Proof.Machine
end

section
/-! The segments of a frame, from its start to its end (R141 to R147). -/

namespace Sys2Proof.Machine

/-! ### The end of a bit-mark (R146) -/

/-- What follows the 48th bit-mark: the delay if it is pending (R172), else IDLE. -/
def endFrame (s : State) : State := if s.dly then delayAfterFrame s else setCarrier false (goIdle s)

theorem endFrame_of_dly {s : State} (h : s.dly = true) : endFrame s = delayAfterFrame s := if_pos h

theorem endFrame_of_not_dly {s : State} (h : s.dly = false) : endFrame s = setCarrier false (goIdle s) := by
  simp [endFrame, h]

theorem endBitMark_of_lt {s : State} (h : s.i.toNat < 47) : endBitMark s = startBitCell (s.i + 1#6) s := if_pos h

theorem endBitMark_of_ge {s : State} (h : 47 ≤ s.i.toNat) : endBitMark s = endFrame s := if_neg (Nat.not_lt.2 h)

/-- What the end of a frame leaves and what it writes (R146, R172). -/
theorem endFrame_registers (s : State) :
    (endFrame s).ce = false ∧ (endFrame s).f = s.f ∧ (endFrame s).i = s.i ∧ (endFrame s).dly = false ∧
    (endFrame s).btn = s.btn ∧
    (s.dly = true → (endFrame s).seg = .delay ∧ (endFrame s).cnt = s.cfg.delayTicks) ∧
    (s.dly = false → (endFrame s).seg = .idle ∧ (endFrame s).cnt = 0#24) := by
  cases hdly : s.dly with
  | true => rw [endFrame_of_dly hdly]; exact ⟨rfl, rfl, rfl, rfl, rfl, fun _ => ⟨rfl, rfl⟩, nofun⟩
  | false => rw [endFrame_of_not_dly hdly]; exact ⟨rfl, rfl, rfl, hdly, rfl, nofun, fun _ => ⟨rfl, rfl⟩⟩

/-! ### The frame as segments in a row -/

theorem ne_idle_of_inFrame (g : Seg) (h : inFrame g = true) : g ≠ .idle := by
  rintro rfl
  exact absurd h (by decide)

/-- The segments that follow one another are segments of a frame. -/
abbrev PlaysFrame : State → List Pulse → State → Prop := Plays (fun g => inFrame g = true)

/-- One bit cell: its gap, then its bit-mark. -/
theorem playsFrame_cell (k : BitVec 6) (s : State) :
    PlaysFrame (startBitCell k s) (cellPulses s.cfg.toParams (s.f.getLsbD k.toNat))
      (endBitMark (endBitGap (startBitCell k s))) :=
  .segment rfl rfl (gapLen_ne_zero s.cfg _) (.segment rfl rfl s.cfg.tBitMark_ne_zero (.nil _))

/-- The cells before the cell of index `k`, bit 0 first. -/
theorem playsFrame_cells (s : State) {k : Nat} (hk : k ≤ 47) :
    PlaysFrame (startBitCell 0#6 s)
      ((List.range k).flatMap (fun j => cellPulses s.cfg.toParams (s.f.getLsbD j)))
      (startBitCell (BitVec.ofNat 6 k) s) := by
  induction k with
  | zero => exact .nil _
  | succ k ih =>
    have hmod : (BitVec.ofNat 6 k).toNat = k := by rw [BitVec.toNat_ofNat]; omega
    have hcell := playsFrame_cell (BitVec.ofNat 6 k) s
    have hlt : (endBitGap (startBitCell (BitVec.ofNat 6 k) s)).i.toNat < 47 := hmod.trans_lt hk
    rw [endBitMark_of_lt hlt, hmod] at hcell
    rw [List.range_succ, List.flatMap_append, List.flatMap_singleton, BitVec.ofNat_add]
    exact (ih (by omega)).append hcell

/-- The preamble and the header mark lead to the first cell. -/
theorem playsFrame_preamble (payload : Payload) (d : Bool) (s : State) :
    PlaysFrame (startFrame payload d s)
      [(true, s.cfg.tPreMark.toNat), (false, s.cfg.tPreGap.toNat), (true, s.cfg.tBitMark.toNat)]
      (startBitCell 0#6 (startFrame payload d s)) :=
  .segment rfl rfl s.cfg.tPreMark_ne_zero
    (.segment rfl rfl s.cfg.tPreGap_ne_zero (.segment rfl rfl s.cfg.tBitMark_ne_zero (.nil _)))

/-- The 48th cell leads to the end of the frame. -/
theorem playsFrame_lastCell (s : State) :
    PlaysFrame (startBitCell 47#6 s) (cellPulses s.cfg.toParams (s.f.getLsbD 47))
      (endFrame (endBitGap (startBitCell 47#6 s))) :=
  playsFrame_cell 47#6 s

/-- The segments of a started frame are the pulses of R149, up to the end of the frame. -/
theorem playsFrame_startFrame (payload : Payload) (d : Bool) (s : State) :
    PlaysFrame (startFrame payload d s) (framePulses s.cfg.toParams (assembleFrame s.cfg.toParams payload))
      (endFrame (endBitGap (startBitCell 47#6 (startFrame payload d s)))) := by
  have hcells := (playsFrame_cells (startFrame payload d s) (Nat.le_refl 47)).append (playsFrame_lastCell _)
  rw [framePulses, List.range_succ, List.flatMap_append, List.flatMap_singleton]
  exact (playsFrame_preamble payload d s).append hcells

end Sys2Proof.Machine
end

section
/-! The settled statements of 43_frame_encoder.md. -/

namespace Sys2Proof.Proofs
open Sys2Proof.Machine

/-- Settles O39 (R149, R148, R153): a started frame is 99 segments in a row, whose pulses are the frame's; counted one
after another they give its samples, and the end of the last is the end of the frame. -/
theorem frameWaveformIsExact : Obligations.FrameWaveformIsExact := by
  rintro s payload d p f xs rfl rfl h
  have hplays := playsFrame_startFrame payload d s
  have hticks : EndsAtTick (ticksOf (framePulses s.cfg.toParams (assembleFrame s.cfg.toParams payload))) xs := by
    rw [ticksOf_framePulses]
    exact h
  refine ⟨?_, ⟨_, run_driven xs _, ?_⟩, fun k hk => ⟨_, run_driven_take xs _ hk.le, ?_⟩⟩
  · rw [samples_driven, hplays.samplesAlong_eq ne_idle_of_inFrame hticks]
    exact samplesOf_framePulses _ _
  · rw [hplays.afterCycles_eq ne_idle_of_inFrame hticks]
    exact endFrame_registers (endBitGap (startBitCell 47#6 (startFrame payload d s)))
  · have hframe := hplays.seg_of_take ne_idle_of_inFrame hticks hk
    exact ⟨hframe, cmdReady_of_busy (ne_idle_of_inFrame _ hframe)⟩

/-- Settles O41 (R151): the cells are summed bit by bit; the address half and the payload half of a frame have their 1
bits apart. -/
theorem frameDurationFormula : Obligations.FrameDurationFormula := by
  refine ⟨ticksOf_framePulses, fun p f => (ticksOf_framePulses p f).symm, popcount_assembleFrame, ?_⟩
  rintro delay carrier clk p rfl
  refine ⟨fun f => ?_, fun x => ?_⟩
  · have hle := popcount_le f
    rw [frameTicks_defaultParams]
    omega
  · rw [frameTicks_defaultParams, popcount_assembleFrame, popcount_defaultAddr]
    omega

/-- Settles O22 (R141, R140, R171): the writes of `startFrame`, and the start actions of TRANSMIT and of DISPATCH with a
button, which are that start. -/
theorem frameStartsWithItsPayload : Obligations.FrameStartsWithItsPayload := by
  refine ⟨fun s x _ => ⟨rfl, assembleFrame_fields s.cfg.toParams x⟩,
    fun s x => exec_eq_startState (.transmit x) s, fun s l b hl => ?_⟩
  rw [exec_eq_startState, startState, hl]
  rfl

/-- Settles O26 (R142 to R145, R147): the step at the last tick event is the successor rule of the segment. -/
theorem frameSegmentsFollow : Obligations.FrameSegmentsFollow := by
  refine ⟨fun _ _ => rfl, fun s hrst htick hcnt => ?_⟩
  have hlast (hseg : s.seg ≠ .idle) : step s = .next (endSegment s.advance) := step_of_lastTick hrst hseg htick hcnt
  refine ⟨fun h => ?_, fun h => ?_, fun h => ?_, fun h => ?_⟩ <;> rw [hlast (by simp [h])]
  · rw [endSegment_of_preMark (s := s.advance) h]; rfl
  · rw [endSegment_of_preGap (s := s.advance) h]; rfl
  · rw [endSegment_of_hdrMark (s := s.advance) h]; rfl
  · rw [endSegment_of_bitGap (s := s.advance) h]; rfl

/-- Settles O27 (R146, R172): the successor rule of a bit-mark, before the 48th the next cell, else the end of the frame
for either value of DLY. -/
theorem bitMarkEnds : Obligations.BitMarkEnds := by
  intro s hrst htick hcnt hseg
  have hlast : step s = .next (endBitMark s.advance) := by
    rw [step_of_lastTick hrst (by simp [hseg]) htick hcnt, endSegment_of_bitMark (s := s.advance) hseg]
  refine ⟨fun hi => ?_, fun hi hdly => ?_, fun hi hdly => ?_⟩ <;> rw [hlast]
  · have hnext : (s.i + 1#6).toNat = s.i.toNat + 1 := by bv_omega
    rw [endBitMark_of_lt (s := s.advance) hi, ← hnext]
    rfl
  · rw [endBitMark_of_ge (s := s.advance) hi, endFrame_of_dly (s := s.advance) hdly]
    rfl
  · rw [endBitMark_of_ge (s := s.advance) hi, endFrame_of_not_dly (s := s.advance) hdly]
    rfl

/-- Settles O40 (R150): two marks and a gap before the cells, and one of each in every cell. -/
theorem frameHasFiftyMarks : Obligations.FrameHasFiftyMarks := by
  intro p f
  simp [framePulses, List.countP_flatMap, Function.comp_def, countP_cellPulses]

end Sys2Proof.Proofs
end

section
/-! What the decode function answers: the first button, in the order of the ids, whose threshold lies above the level. -/

namespace Sys2Proof.Machine

/-! ### A search through a list -/

theorem find?_cons_eq_ite {α : Type} (test : α → Bool) (x : α) (xs : List α) :
    (x :: xs).find? test = if test x then some x else xs.find? test := by
  rw [List.find?_cons]
  cases test x <;> rfl

/-- In a list whose keys rise, a search finds the element of least key that passes the test: a head that passes has a
smaller key than all after it, and one that fails is none of the elements the search is about. -/
theorem find?_eq_some_iff_of_pairwise {α : Type} {key : α → Nat} {test : α → Bool} {xs : List α}
    (h : xs.Pairwise fun a b => key a < key b) (b : α) :
    xs.find? test = some b ↔ b ∈ xs ∧ test b = true ∧ ∀ a ∈ xs, key a < key b → test a = false := by
  induction xs with
  | nil => simp
  | cons x xs ih =>
    obtain ⟨hx, hxs⟩ := List.pairwise_cons.1 h
    rw [find?_cons_eq_ite]
    split
    case isTrue hpass => grind
    case isFalse hfail =>
      rw [ih hxs]
      grind

/-! ### The decode function as a search (R160) -/

/-- The buttons in the order of R160's tests, which is the order of their ids. -/
def buttonOrder : List Button := [.exit, .ok, .down, .up, .menu, .guide, .power, .input]

theorem mem_buttonOrder (b : Button) : b ∈ buttonOrder := by cases b <;> decide

theorem pairwise_buttonOrder : buttonOrder.Pairwise fun b b' => (buttonId b).toNat < (buttonId b').toNat := by decide

theorem decodeLevel_eq_find? (p : Params) (l : Level) :
    decodeLevel p l = if p.noneAbove < l then none else buttonOrder.find? (belowThreshold p l) := by
  simp only [decodeLevel, buttonOrder, find?_cons_eq_ite, List.find?_nil]

theorem decodeLevel_eq_some_iff (p : Params) (l : Level) (b : Button) :
    decodeLevel p l = some b ↔ l ≤ p.noneAbove ∧ (l.toNat : Int) < p.th b ∧
      ∀ b' : Button, (buttonId b').toNat < (buttonId b).toNat → p.th b' ≤ (l.toNat : Int) := by
  rw [decodeLevel_eq_find?]
  split
  case isTrue h => simp [BitVec.not_le.2 h]
  case isFalse h =>
    rw [find?_eq_some_iff_of_pairwise pairwise_buttonOrder]
    simp [mem_buttonOrder, BitVec.not_lt.1 h, belowThreshold]

theorem decodeLevel_eq_none_iff (p : Params) (l : Level) :
    decodeLevel p l = none ↔ p.noneAbove < l ∨ ∀ b : Button, p.th b ≤ (l.toNat : Int) := by
  rw [decodeLevel_eq_find?]
  split
  case isTrue h => simp [h]
  case isFalse h => simp [h, mem_buttonOrder, belowThreshold]

/-- R162: of the parameters the decode function reads NONE_ABOVE and the thresholds alone. -/
theorem decodeLevel_congr {p q : Params} (hnone : p.noneAbove = q.noneAbove) (hth : ∀ b, p.th b = q.th b) (l : Level) :
    decodeLevel p l = decodeLevel q l := by
  have hbelow : belowThreshold p l = belowThreshold q l := by
    funext b
    simp [belowThreshold, hth]
  simp only [decodeLevel, hnone, hbelow]

/-! ### The default thresholds -/

/-- The thresholds read none of the three OPEN parameters. -/
theorem th_defaultParams (delay : Fin 16777215) (carrier clk : Nat) (b : Button) :
    (Config.defaultParams delay carrier clk).th b = (Config.defaultParams 0 0 0).th b := rfl

theorem th_defaultParams_le (b : Button) : (Config.defaultParams 0 0 0).th b ≤ 973 := by
  cases b <;> decide

theorem le_noneAbove_defaultParams_iff (l : Level) : l ≤ (Config.defaultParams 0 0 0).noneAbove ↔ l.toNat ≤ 999 :=
  BitVec.le_def

theorem noneAbove_defaultParams_lt_iff (l : Level) : (Config.defaultParams 0 0 0).noneAbove < l ↔ 999 < l.toNat :=
  BitVec.lt_def

/-- A button's default range begins where the thresholds before its own end, and ends below its own. -/
theorem decodeLevel_defaultParams_of_range {l : Level} {b : Button} {first last : Nat}
    (hfirst : ∀ b' ∈ buttonOrder, (buttonId b').toNat < (buttonId b).toNat → (Config.defaultParams 0 0 0).th b' ≤ first)
    (hlast : (Config.defaultParams 0 0 0).th b = last + 1) (hge : first ≤ l.toNat) (hle : l.toNat ≤ last) :
    decodeLevel (Config.defaultParams 0 0 0) l = some b := by
  have hth := th_defaultParams_le b
  refine (decodeLevel_eq_some_iff _ l b).2 ⟨(le_noneAbove_defaultParams_iff l).2 (by omega), by omega, fun b' hb' => ?_⟩
  exact (hfirst b' (mem_buttonOrder b') hb').trans (by exact_mod_cast hge)

/-- 90_conflicts.md C2: past the last default threshold no button is found. -/
theorem decodeLevel_defaultParams_of_ge {l : Level} (hl : 973 ≤ l.toNat) :
    decodeLevel (Config.defaultParams 0 0 0) l = none :=
  (decodeLevel_eq_none_iff _ l).2 (.inr fun b => (th_defaultParams_le b).trans (by exact_mod_cast hl))

end Sys2Proof.Machine
end

section
/-! The settled statements of 44_button_decoder.md. -/

namespace Sys2Proof.Proofs
open Sys2Proof.Machine

/-- Settles O28 (R160, R162, R83): the decode function is a search through the buttons in the order of their ids; with
the defaults each range lies between the thresholds before a button's own and its own. -/
theorem decoderFollowsTheThresholds : Obligations.DecoderFollowsTheThresholds := by
  refine ⟨decodeLevel_eq_some_iff, decodeLevel_eq_none_iff, by decide, fun _ => rfl,
    fun p l => buttonCode_le (decodeLevel p l), fun p q l hnone hth => decodeLevel_congr hnone hth l, ?_⟩
  rintro delay carrier clk l p rfl
  rw [decodeLevel_defaultParams]
  exact ⟨decodeLevel_defaultParams_of_range (first := 0) (by decide) rfl (Nat.zero_le _),
    decodeLevel_defaultParams_of_range (by decide) rfl,
    decodeLevel_defaultParams_of_range (by decide) rfl,
    decodeLevel_defaultParams_of_range (by decide) rfl,
    decodeLevel_defaultParams_of_range (by decide) rfl,
    decodeLevel_defaultParams_of_range (by decide) rfl,
    decodeLevel_defaultParams_of_range (by decide) rfl,
    decodeLevel_defaultParams_of_range (by decide) rfl,
    fun hge hle => ⟨decodeLevel_defaultParams_of_ge hge, (le_noneAbove_defaultParams_iff l).2 hle⟩,
    fun hge => ⟨decodeLevel_defaultParams_of_ge (by omega), (noneAbove_defaultParams_lt_iff l).2 hge⟩⟩

/-- Settles O23 (R161): the start action of DECODE is `setButton` of the decoded level, one write. -/
theorem decodeWritesTheButton : Obligations.DecodeWritesTheButton :=
  fun s l => exec_eq_startState (.decode l) s

/-- Settles O29 (R163): neither the decode function nor a threshold reads an OPEN parameter, so the values are those of
one choice of them, computed. -/
theorem decoderBoundaries : Obligations.DecoderBoundaries := by
  rintro delay carrier clk p rfl
  simp only [decodeLevel_defaultParams, th_defaultParams]
  decide

end Sys2Proof.Proofs
end

section
/-! What DISPATCH writes (R171), what it does not read, and that no step reads BTN (R176). -/

namespace Sys2Proof.Machine

/-! ### The two outcomes of DISPATCH (R171) -/

theorem startState_dispatch_of_some {s : State} {l : Level} {b : Button} (hl : decodeLevel s.cfg.toParams l = some b) :
    startState (.dispatch l) s = startFrame (romRead s.cfg.toParams b) true (setButton (some b) s) := by
  rw [startState, hl]
  rfl

theorem startState_dispatch_of_none {s : State} {l : Level} (hl : decodeLevel s.cfg.toParams l = none) :
    startState (.dispatch l) s = enterDelay (setButton none s) := by
  rw [startState, hl]
  rfl

/-- The start of a frame writes every register but BTN, from the configuration alone (R141). -/
theorem sameRegisters_startFrame {s s' : State} (hcfg : s.cfg = s'.cfg) (hbtn : s.btn = s'.btn) (p : Payload)
    (d : Bool) : SameRegisters (startFrame p d s) (startFrame p d s') := by
  constructor <;> simp [hcfg, hbtn]

/-! ### BTN is never read (R28) -/

/-- The same state with another BTN. -/
def State.withBtn (b : BitVec 4) (s : State) : State := { s with btn := b }

@[simp] theorem State.withBtn_seg (b : BitVec 4) (s : State) : (s.withBtn b).seg = s.seg := rfl
@[simp] theorem State.withBtn_cnt (b : BitVec 4) (s : State) : (s.withBtn b).cnt = s.cnt := rfl
@[simp] theorem State.withBtn_i (b : BitVec 4) (s : State) : (s.withBtn b).i = s.i := rfl
@[simp] theorem State.withBtn_dly (b : BitVec 4) (s : State) : (s.withBtn b).dly = s.dly := rfl

/-- DECODE and DISPATCH write BTN over; every other start action leaves it. -/
theorem startState_withBtn (i : Instr) (b : BitVec 4) (s : State) :
    ∃ c, startState i (s.withBtn b) = (startState i s).withBtn c := by
  cases i with
  | wait n => exact ⟨b, by simp only [startState]; split <;> rfl⟩
  | gap d => exact ⟨b, by simp only [startState]; split <;> rfl⟩
  | mark d => exact ⟨b, by simp only [startState]; split <;> rfl⟩
  | disable | enable | transmit _ => exact ⟨b, rfl⟩
  | decode l => exact ⟨(startState (.decode l) s).btn, rfl⟩
  | dispatch l => exact ⟨(startState (.dispatch l) s).btn, rfl⟩

theorem endBitMark_withBtn (b : BitVec 4) (s : State) : endBitMark (s.withBtn b) = (endBitMark s).withBtn b := by
  unfold endBitMark
  rw [State.withBtn_i, State.withBtn_dly]
  split
  · rfl
  · split <;> rfl

theorem endSegment_withBtn (b : BitVec 4) (s : State) : endSegment (s.withBtn b) = (endSegment s).withBtn b := by
  unfold endSegment
  rw [State.withBtn_seg]
  cases s.seg with
  | bitMark => exact endBitMark_withBtn b s
  | idle | wait | mark | gap | preMark | preGap | hdrMark | bitGap | delay => rfl

theorem countTick_withBtn (b : BitVec 4) (s : State) : countTick (s.withBtn b) = (countTick s).withBtn b := by
  unfold countTick
  rw [State.withBtn_cnt, endSegment_withBtn]
  split <;> rfl

/-- A cycle from a state with another BTN differs in BTN alone: reset, DECODE and DISPATCH write it over, and whatever
else the cycle does leaves it. -/
theorem cycleState_withBtn (x : Inputs) (b : BitVec 4) (s : State) :
    ∃ c, cycleState x (s.withBtn b) = (cycleState x s).withBtn c := by
  unfold cycleState
  rw [State.withBtn_seg, countTick_withBtn]
  split
  · exact ⟨0#4, rfl⟩
  · split <;> split
    · exact startState_withBtn _ b s
    all_goals exact ⟨b, rfl⟩

/-! ### The frame parts with the defaults (R175) -/

theorem romRead_defaultParams (delay : Fin 16777215) (carrier clk : Nat) (b : Button) :
    romRead (Config.defaultParams delay carrier clk) b = Config.defaultTable.get b := rfl

/-- The frame part of a button's DISPATCH counts the 1 bits of its table entry, those of the address being fixed. -/
theorem frameTicks_defaultTable (delay : Fin 16777215) (carrier clk : Nat) (b : Button) :
    frameTicks (Config.defaultParams delay carrier clk)
        (assembleFrame (Config.defaultParams delay carrier clk) (romRead (Config.defaultParams delay carrier clk) b)) =
      1906 + 35 * popcount (Config.defaultTable.get b) := by
  rw [frameTicks_defaultParams, popcount_assembleFrame, popcount_defaultAddr, romRead_defaultParams]
  omega

end Sys2Proof.Machine
end

section
/-! The settled statements of 45_command_dispatcher.md. -/

namespace Sys2Proof.Proofs
open Sys2Proof.Machine

/-- Settles O34 (R176, R28): the level and the configuration choose between a frame, whose start writes all registers
from the configuration, and the delay, whose start writes BTN, SEG and CNT alone; and a cycle from a state with another
BTN differs in BTN alone. -/
theorem dispatchKeepsNoState : Obligations.DispatchKeepsNoState := by
  constructor
  · intro l s s' t t' hcfg hex hex'
    rw [exec_eq_startState] at hex hex'
    cases hex
    cases hex'
    cases hl : decodeLevel s.cfg.toParams l with
    | some b =>
      rw [startState_dispatch_of_some hl, startState_dispatch_of_some (hcfg ▸ hl), ← hcfg]
      have hsame := sameRegisters_startFrame (s := setButton (some b) s) (s' := setButton (some b) s') hcfg rfl
        (romRead s.cfg.toParams b) true
      exact ⟨hsame.btn.symm, hsame.seg.symm, hsame.cnt.symm, .inl ⟨rfl, hsame⟩⟩
    | none =>
      rw [startState_dispatch_of_none hl, startState_dispatch_of_none (hcfg ▸ hl)]
      exact ⟨rfl, rfl, by simp [hcfg], .inr ⟨rfl, rfl, rfl, rfl, rfl⟩⟩
  · intro s b
    obtain ⟨c, hc⟩ := cycleState_withBtn s.now b s.advance
    exact ⟨_, c, step_eq_cycleState s, (step_eq_cycleState (s.withBtn b)).trans (congrArg _ hc)⟩

/-- Settles O24 (R171, R170): the two outcomes of DISPATCH's start action. -/
theorem dispatchStartsFrameOrDelay : Obligations.DispatchStartsFrameOrDelay := by
  intro s l
  refine ⟨fun b hl => ?_, fun hl => ?_⟩ <;> rw [exec_eq_startState]
  · rw [startState_dispatch_of_some hl]
    rfl
  · rw [startState_dispatch_of_none hl]
    rfl

/-- Settles O42 (R175): 35 ticks for each 1 bit of the button's table entry, over the 1906 of a payload without any;
DELAY_TICKS is the OPEN parameter. -/
theorem dispatchFrameParts : Obligations.DispatchFrameParts := by
  rintro delay carrier clk p rfl
  simp only [frameTicks_defaultTable]
  refine ⟨?_, ?_, ?_, ?_, ?_, ?_, ?_, ?_, rfl⟩ <;> decide

end Sys2Proof.Proofs
end

section
/-! A number that fits the command port is a command word, and every command word is an operation (R76). -/

namespace Sys2Proof.Machine

theorem wordOfNat_of_lt {w : Nat} (h : w < 2 ^ 27) : wordOfNat w = .ok (BitVec.ofNat 27 w) := if_pos h

theorem decodeNat_of_lt {w : Nat} (h : w < 2 ^ 27) : decodeNat w = .ok (decodeCmd (BitVec.ofNat 27 w)) := by
  rw [decodeNat, wordOfNat_of_lt h]

end Sys2Proof.Machine
end

section
/-! The settled statement of 60_exceptions.md. -/

namespace Sys2Proof.Proofs
open Sys2Proof.Machine Sys2Proof.Laws

/-- Settles O10 (R200, R76): the decoder refuses a number only when it is wider than the port, an operand fits its field
by its type, and the outcomes of an operation and of a step are the next states `startState` and `cycleState` give. -/
theorem nothingEverStops : Obligations.NothingEverStops :=
  ⟨fun w hw => ⟨decodeCmd (BitVec.ofNat 27 w), decodeNat_of_lt hw⟩,
    fun i s => ⟨wellFormed_all i, startState i s, exec_eq_startState i s⟩,
    fun s => ⟨cycleState s.now s.advance, step_eq_cycleState s⟩⟩

end Sys2Proof.Proofs
end

section
/-! Every operation of R233 as segments in a row: the tick events it takes, the segments its start action begins, and the
cycles from its acceptance to its last tick event. -/

namespace Sys2Proof.Machine

/-! ### How many tick events an operation takes -/

theorem frameTicks_ne_zero (c : Config) (f : Frame) : frameTicks c.toParams f ≠ 0 := by
  have hpos : c.tPreMark.toNat ≠ 0 := fun h => c.tPreMark_ne_zero (BitVec.eq_of_toNat_eq h)
  rw [frameTicks]
  omega

theorem dispatchTicks_ne_zero (c : Config) (l : Level) : dispatchTicks c.toParams l ≠ 0 := by
  have hpos : c.delayTicks.toNat ≠ 0 := fun h => c.delayTicks_ne_zero (BitVec.eq_of_toNat_eq h)
  rw [dispatchTicks]
  omega

/-- The pulses of an operation last as many tick events as R233 gives it. -/
theorem ticksOf_operationPulses (p : Params) (ce : Bool) (i : Instr) :
    ticksOf (operationPulses p ce i) = operationTicks p i := by
  cases i with
  | disable | enable | decode _ | wait _ | gap _ | mark _ => rfl
  | transmit x => exact ticksOf_framePulses p _
  | dispatch l =>
    simp only [operationPulses, operationTicks, dispatchTicks]
    cases decodeLevel p l with
    | some b => simp only [ticksOf_append, ticksOf_framePulses, ticksOf_cons, ticksOf_nil, Nat.add_zero]
    | none => simp only [ticksOf_cons, ticksOf_nil, Nat.add_zero, Nat.zero_add]

/-! ### What the start action begins -/

/-- The segments that follow one another, whichever they are. -/
abbrev PlaysBusy : State → List Pulse → State → Prop := Plays (fun g => g ≠ .idle)

theorem Plays.mono {P Q : Seg → Prop} (hPQ : ∀ g, P g → Q g) {s t : State} {ps : List Pulse} (h : Plays P s ps t) :
    Plays Q s ps t := by
  induction h with
  | nil s => exact .nil s
  | cons hseg hcnt _ ih => exact .cons (hPQ _ hseg) hcnt ih

/-- A segment of its own, up to its end. -/
theorem playsBusy_segment {s : State} (hseg : s.seg ≠ .idle) (hcnt : s.cnt ≠ 0#24) :
    PlaysBusy s [(s.ce, s.cnt.toNat)] (endSegment s) :=
  .cons hseg hcnt (.nil _)

theorem playsBusy_startPulse (level : Bool) {d : Duration} (hd : d ≠ 0#8) (s : State) :
    PlaysBusy (startPulse level d s) [(level, d.toNat)] (setCarrier false (goIdle s)) := by
  rw [← endSegment_startPulse level d s]
  exact .segment (pulseSeg_ne_idle level) rfl hd (.nil _)

theorem playsBusy_enterDelay (s : State) :
    PlaysBusy (enterDelay s) [(s.ce, s.cfg.delayTicks.toNat)] (goIdle (enterDelay s)) :=
  playsBusy_segment (s := enterDelay s) (by simp) s.cfg.delayTicks_ne_zero

theorem playsBusy_startFrame (payload : Payload) (d : Bool) (s : State) :
    PlaysBusy (startFrame payload d s) (framePulses s.cfg.toParams (assembleFrame s.cfg.toParams payload))
      (endFrame (endBitGap (startBitCell 47#6 (startFrame payload d s)))) :=
  (playsFrame_startFrame payload d s).mono ne_idle_of_inFrame

/-- A frame with a delay pending, then the delay with the carrier off (R172). -/
theorem playsBusy_startFrame_delay (payload : Payload) (s : State) :
    ∃ t, t.seg = .idle ∧
      PlaysBusy (startFrame payload true s)
        (framePulses s.cfg.toParams (assembleFrame s.cfg.toParams payload) ++ [(false, s.cfg.delayTicks.toNat)]) t := by
  have hframe := playsBusy_startFrame payload true s
  rw [endFrame_of_dly rfl] at hframe
  exact ⟨_, rfl, hframe.append (playsBusy_segment (by simp [delayAfterFrame]) s.cfg.delayTicks_ne_zero)⟩

/-- An operation that takes no tick event is complete after its start action. -/
theorem startState_seg_of_noTicks {s : State} {i : Instr} (hseg : s.seg = .idle)
    (hticks : operationTicks s.cfg.toParams i = 0) : (startState i s).seg = .idle := by
  cases i with
  | disable | enable | decode _ => exact hseg
  | wait n =>
    obtain rfl : n = 0#24 := BitVec.eq_of_toNat_eq hticks
    exact hseg
  | gap d | mark d =>
    obtain rfl : d = 0#8 := BitVec.eq_of_toNat_eq hticks
    exact hseg
  | transmit x => exact absurd hticks (frameTicks_ne_zero s.cfg _)
  | dispatch l => exact absurd hticks (dispatchTicks_ne_zero s.cfg l)

/-- An operation that takes tick events begins segments whose pulses are the operation's, and they lead to IDLE. -/
theorem exists_playsBusy_startState {s : State} {i : Instr} (hticks : operationTicks s.cfg.toParams i ≠ 0) :
    ∃ t, t.seg = .idle ∧ PlaysBusy (startState i s) (operationPulses s.cfg.toParams s.ce i) t := by
  cases i with
  | disable | enable | decode _ => exact absurd rfl hticks
  | wait n =>
    have hn : n ≠ 0#24 := by rintro rfl; exact hticks rfl
    rw [startState, if_neg hn]
    exact ⟨_, rfl, playsBusy_segment (s := enterSegment .wait n s) (by simp) hn⟩
  | gap d =>
    have hd : d ≠ 0#8 := by rintro rfl; exact hticks rfl
    rw [startState_gap_of_ne_zero hd]
    exact ⟨_, rfl, playsBusy_startPulse false hd s⟩
  | mark d =>
    have hd : d ≠ 0#8 := by rintro rfl; exact hticks rfl
    rw [startState_mark_of_ne_zero hd]
    exact ⟨_, rfl, playsBusy_startPulse true hd s⟩
  | transmit x =>
    refine ⟨_, ?_, playsBusy_startFrame x false s⟩
    rw [endFrame_of_not_dly rfl]
    rfl
  | dispatch l =>
    rw [operationPulses]
    cases hl : decodeLevel s.cfg.toParams l with
    | some b =>
      rw [startState_dispatch_of_some hl]
      exact playsBusy_startFrame_delay (romRead s.cfg.toParams b) (setButton (some b) s)
    | none =>
      rw [startState_dispatch_of_none hl]
      exact ⟨_, rfl, playsBusy_enterDelay (setButton none s)⟩

/-! ### From the acceptance cycle to the last tick event -/

section
variable {s u t : State} {x : Inputs} {xs : List Inputs} {ps : List Pulse}
  (hfirst : cycleState x s.nextCycle = u.withEnv s.inputs (s.cycle + 1)) (hps : PlaysBusy u ps t)
  (h : EndsAtTick (ticksOf ps) xs)
include hfirst hps h

theorem afterCycles_of_startedPlays :
    afterCycles s (x :: xs) = t.withEnv s.inputs (s.cycle + 1 + xs.length) := by
  rw [afterCycles_cons, hfirst, afterCycles_withEnv, hps.afterCycles_eq (fun _ => id) h]
  rfl

theorem samplesAlong_of_startedPlays :
    samplesAlong s (x :: xs) = (if x.tick = true then [s.ce] else []) ++ samplesOf ps := by
  rw [samplesAlong, hfirst, samplesAlong_withEnv, hps.samplesAlong_eq (fun _ => id) h]

theorem afterCycles_take_seg_of_startedPlays {k : Nat} (hk : 1 ≤ k) (hle : k ≤ xs.length) :
    (afterCycles s ((x :: xs).take k)).seg ≠ .idle := by
  obtain ⟨j, rfl⟩ := Nat.exists_eq_add_of_le' hk
  rw [List.take_succ_cons, afterCycles_cons, hfirst, afterCycles_withEnv, State.withEnv_seg]
  exact hps.seg_of_take (fun _ => id) h hle

end

end Sys2Proof.Machine
end

section
/-! Cycles in a row that begin and end in IDLE: held reset (R223), and the parts of a mark built of three commands
(R229). -/

namespace Sys2Proof.Machine

/-! ### Holding reset (R223) -/

/-- After cycles with `rst` = 1 the registers are at reset: the last of the cycles is a reset of whatever the others
left. -/
theorem atReset_afterCycles_of_rst (s : State) {xs : List Inputs} (hne : xs ≠ []) (hrst : ∀ x ∈ xs, x.rst = true) :
    AtReset (afterCycles s xs) := by
  obtain ⟨ys, x, rfl⟩ := (List.eq_nil_or_concat' xs).resolve_left hne
  rw [afterCycles_concat, cycleState_of_rst (hrst x (by simp))]
  exact atReset_resetRegisters _

/-! ### WAIT, and the sample of an acceptance cycle (R105, R229) -/

/-- The sample of a cycle that may be a tick event, as a number of equal samples. -/
theorem ite_singleton_eq_replicate (b v : Bool) :
    (if b = true then [v] else []) = List.replicate (if b = true then 1 else 0) v := by
  cases b <;> rfl

/-- An accepted WAIT of n ticks ends in IDLE with CE as it was; n samples of that CE are taken, and one more in the
acceptance cycle if it is a tick event. -/
theorem registers_samples_of_wait {s : State} {x : Inputs} {xs : List Inputs} {n : Ticks} (hseg : s.seg = .idle)
    (hrst : x.rst = false) (hcmd : x.cmdValid = true) (hdec : decodeCmd x.cmd = .wait n) (hn : n ≠ 0#24)
    (h : EndsAtTick n.toNat xs) :
    (afterCycles s (x :: xs)).seg = .idle ∧ (afterCycles s (x :: xs)).ce = s.ce ∧
    samplesAlong s (x :: xs) = (if x.tick = true then [s.ce] else []) ++ List.replicate n.toNat s.ce := by
  have hstart : startState (decodeCmd x.cmd) s = enterSegment .wait n s := by rw [hdec, startState, if_neg hn]
  have hbusy : (enterSegment .wait n s).seg ≠ .idle := nofun
  have hregs := afterCycles_of_startedSegment hseg hrst hcmd hstart hbusy h
  rw [endSegment_of_wait rfl] at hregs
  exact ⟨hregs.seg, hregs.ce, samplesAlong_of_startedSegment hseg hrst hcmd hstart hbusy h⟩

end Sys2Proof.Machine
end

section
/-! The settled statements of 70_reset_and_hazards.md. -/

namespace Sys2Proof.Proofs
open Sys2Proof.Machine

/-- Settles O43 (R233): the start action of an operation that takes no tick event leaves IDLE current; that of any other
begins segments in a row whose pulses are the operation's, which are counted one after another up to IDLE. -/
theorem operationsTakeTheirTicks : Obligations.OperationsTakeTheirTicks := by
  rintro s x xs i p hseg hrst hcmd rfl rfl
  have hfirst := cycleState_nextCycle_of_command hseg hrst hcmd rfl
  constructor
  · intro hticks
    have hidle : (cycleState x s.nextCycle).seg = .idle := by
      rw [hfirst]
      exact startState_seg_of_noTicks hseg hticks
    exact ⟨_, step_driven_cons x xs s, hidle, fun h => (cmdReady_iff _).2 ⟨hidle, h⟩⟩
  · intro hticks h
    obtain ⟨t, hidle, hps⟩ := exists_playsBusy_startState hticks
    rw [← ticksOf_operationPulses s.cfg.toParams s.ce] at h
    refine ⟨?_, fun k hk hle => ?_, ?_⟩
    · have hrun := run_driven (x :: xs) s
      rw [afterCycles_of_startedPlays hfirst hps h] at hrun
      exact ⟨_, hrun, hidle, rfl, fun hr => (cmdReady_iff _).2 ⟨hidle, hr⟩⟩
    · exact ⟨_, run_driven_take (x :: xs) s (hle.trans (Nat.le_succ _)),
        cmdReady_of_busy (afterCycles_take_seg_of_startedPlays hfirst hps h hk hle)⟩
    · exact (samples_driven (x :: xs) s).trans (samplesAlong_of_startedPlays hfirst hps h)

/-- Settles O9 (R223, R220): the last cycle with `rst` = 1 puts the registers at reset, and in IDLE with `rst` = 0 the
next cycle is an acceptance cycle (O6). -/
theorem holdingResetKeepsResetState : Obligations.HoldingResetKeepsResetState := by
  intro s xs hne hrst
  have hreset : AtReset (afterCycles s xs) := atReset_afterCycles_of_rst s hne hrst
  obtain ⟨hcfg, hinputs, -⟩ := afterCycles_env s xs
  refine ⟨_, run_driven xs s, hreset, hcfg, hinputs, fun y hy => ⟨(cmdReady_iff _).2 ⟨hreset.seg, hy⟩, fun hcmd => ?_⟩⟩
  exact (stepRunsDecodedInstruction ((afterCycles s xs).driven [y]) hy hreset.seg hcmd).1

/-- Settles O44 (R229, R103, R105): after ENABLE's cycle CE is 1; WAIT's acceptance cycle and its n tick events sample
that CE, as does DISABLE's acceptance cycle, which turns it off. -/
theorem threeCommandMarkIsLonger : Obligations.ThreeCommandMarkIsLonger := by
  intro s e w z xs n hseg hrst hecmd hwcmd hzcmd hedec hwdec hzdec hn h
  obtain ⟨he, hw, hz⟩ : e.rst = false ∧ w.rst = false ∧ z.rst = false := by simpa [NoReset] using hrst
  have hlen : (e :: w :: xs ++ [z]).length = xs.length + 3 := by simp
  obtain ⟨hready, hon⟩ : (cycleState e s.nextCycle).seg = .idle ∧ (cycleState e s.nextCycle).ce = true := by
    rw [cycleState_of_command (s := s.nextCycle) he hseg hecmd, hedec]
    exact ⟨hseg, rfl⟩
  obtain ⟨hidle, hce, hsamples⟩ := registers_samples_of_wait hready hw hwcmd hwdec hn h
  rw [hon] at hce hsamples
  rw [← afterCycles_cons] at hidle hce
  constructor
  · have hrun := run_driven (e :: w :: xs ++ [z]) s
    rw [hlen, afterCycles_concat, cycleState_nextCycle_of_command hidle hz hzcmd rfl, hzdec] at hrun
    exact ⟨_, hrun, hidle, rfl⟩
  · rw [← hlen, samples_driven, samplesAlong_concat, samplesAlong, hsamples, hce]
    simp only [ite_singleton_eq_replicate, List.append_assoc, List.replicate_append_replicate, Nat.add_assoc]

end Sys2Proof.Proofs
end

section
/-! A number on the command port (log 4): what it decodes to, the cycle that offers it, and the step of that cycle. -/

namespace Sys2Proof.Machine

/-! ### The number as a command word -/

theorem tableNumber_of_lt {nbits w : Nat} (h : w < 2 ^ nbits) : tableNumber nbits w = w := Nat.mod_eq_of_lt h

theorem decodeTableWord_of_lt {nbits w : Nat} (hbits : w < 2 ^ nbits) (hport : w < 2 ^ 27) :
    decodeTableWord nbits w = some (decodeCmd (BitVec.ofNat 27 w)) := by
  rw [decodeTableWord, tableNumber_of_lt hbits, decodeNat_of_lt hport]

theorem offerNat_of_lt {w : Nat} (h : w < 2 ^ 27) : offerNat w = offer (BitVec.ofNat 27 w) := by
  rw [offerNat, wordOfNat_of_lt h]

/-! ### The block made ready -/

theorem madeReady_of_idle {s : State} (h : s.seg = .idle) : madeReady s = s := if_pos h

@[simp] theorem madeReady_seg (s : State) : (madeReady s).seg = .idle := by
  unfold madeReady
  split
  · assumption
  · rfl

@[simp] theorem madeReady_cycle (s : State) : (madeReady s).cycle = s.cycle := by
  unfold madeReady
  split <;> rfl

/-- The cycle that offers a command word is an acceptance cycle (R102, O6). -/
theorem step_offerNext {w : Nat} (h : w < 2 ^ 27) (s : State) :
    step (offerNext w s) = exec (decodeCmd (BitVec.ofNat 27 w)) ((madeReady s).withEnv s.inputs (s.cycle + 1)) := by
  have hnow : (offerNext w s).now = offer (BitVec.ofNat 27 w) := offerNat_of_lt h
  have hadvance : (offerNext w s).advance = (madeReady s).withEnv s.inputs (s.cycle + 1) := by
    rw [← madeReady_cycle s]
    rfl
  have hstep := (Proofs.stepRunsDecodedInstruction (offerNext w s) (by rw [hnow]; rfl) (madeReady_seg s)
    (by rw [hnow]; rfl)).1
  rw [hstep, hnow, hadvance]
  rfl

end Sys2Proof.Machine
end

section
/-! The settled statement of log 4 (notes/assumptions/4.md). -/

namespace Sys2Proof.Proofs
open Sys2Proof.Machine

/-- Settles O16 (log 4): a word below 2^27 fits the table's 32 bits and the port's 27, so decoder and port see the same
command word, and the block made ready accepts it (O6). -/
theorem offeredWordRunsNext : Obligations.OfferedWordRunsNext := by
  intro s w hport
  have hbits : w < 2 ^ 32 := hport.trans (by decide)
  refine ⟨⟨_, decodeTableWord_of_lt hbits hport, ?_⟩, madeReady_of_idle⟩
  rw [State.withFetchWord, tableNumber_of_lt hbits, step_offerNext hport]
  rfl

end Sys2Proof.Proofs
end
